-- ==== Sys2Proof/Word.lean ====
section
/-! DEFINITION. The widths of the core's values (00_scope.md R6, R8): every value is unsigned; 8-bit arithmetic is
modulo 256 and 16-bit arithmetic modulo 65536, which is the arithmetic of `BitVec 8` and `BitVec 16`. -/

namespace Sys2Proof

/-- An 8-bit register, timer or memory byte (10_state.md R20, R32; 20_memory.md R50). -/
abbrev Byte := BitVec 8

/-- A 16-bit value: the index register, the pc, a saved return address or an instruction word (10_state.md R24, R25, R29). -/
abbrev Word := BitVec 16

/-- The 12-bit address field nnn of an instruction (30_encoding.md R81). -/
abbrev Addr12 := BitVec 12

/-- A register index 0-15, the meaning of the 4-bit fields x and y (10_state.md R20; 30_encoding.md R81). -/
abbrev Reg := Fin 16

/-- Register VF, index 15: a general register and the flag register (10_state.md R21). -/
abbrev VF : Reg := 15

/-- Register V0, which Bnnn reads implicitly (40_control_transfer.md R114). -/
abbrev V0 : Reg := 0

end Sys2Proof
end

