-- ==== Sys2Proof/Syntax.lean ====
section
/-! DEFINITION. The 34 instructions (00_scope.md R1; 30_encoding.md R85, R90), one constructor per row of
spec/opcode_table.json, named by the row's variant. Fields that the encoding bounds by their type are typed; the sprite
height n of Dxyn is a count of rows, a natural number, which WellFormed bounds (30_encoding.md R83). -/

namespace Sys2Proof

inductive Instr where
  /-- 00E0, CLS (44_devices_timers.md R201). -/
  | clearDisplay
  /-- 00EE, RET, the spec's variant Return (40_control_transfer.md R111). -/
  | ret
  /-- 1nnn, JP nnn (40_control_transfer.md R112). -/
  | jump (nnn : Addr12)
  /-- 2nnn, CALL nnn (40_control_transfer.md R113). -/
  | call (nnn : Addr12)
  /-- 3xnn, SE Vx, nn (41_skips.md R131). -/
  | skipIfEqualsByte (x : Reg) (nn : Byte)
  /-- 4xnn, SNE Vx, nn (41_skips.md R132). -/
  | skipIfNotEqualsByte (x : Reg) (nn : Byte)
  /-- 5xy0, SE Vx, Vy (41_skips.md R133). -/
  | skipIfEqualsRegister (x y : Reg)
  /-- 6xnn, LD Vx, nn (42_alu.md R153). -/
  | loadByte (x : Reg) (nn : Byte)
  /-- 7xnn, ADD Vx, nn (42_alu.md R154). -/
  | addByte (x : Reg) (nn : Byte)
  /-- 8xy0, LD Vx, Vy (42_alu.md R155). -/
  | move (x y : Reg)
  /-- 8xy1, OR Vx, Vy (42_alu.md R156). -/
  | or (x y : Reg)
  /-- 8xy2, AND Vx, Vy (42_alu.md R157). -/
  | and (x y : Reg)
  /-- 8xy3, XOR Vx, Vy (42_alu.md R158). -/
  | xor (x y : Reg)
  /-- 8xy4, ADD Vx, Vy (42_alu.md R159). -/
  | add (x y : Reg)
  /-- 8xy5, SUB Vx, Vy (42_alu.md R160). -/
  | sub (x y : Reg)
  /-- 8xy6, SHR Vx; the y field is ignored (42_alu.md R161; 30_encoding.md R88). -/
  | shiftRight (x : Reg)
  /-- 8xy7, SUBN Vx, Vy (42_alu.md R162). -/
  | subReverse (x y : Reg)
  /-- 8xyE, SHL Vx; the y field is ignored (42_alu.md R163; 30_encoding.md R88). -/
  | shiftLeft (x : Reg)
  /-- 9xy0, SNE Vx, Vy (41_skips.md R134). -/
  | skipIfNotEqualsRegister (x y : Reg)
  /-- Annn, LD I, nnn (43_index_memory.md R181). -/
  | loadIndex (nnn : Addr12)
  /-- Bnnn, JP V0, nnn (40_control_transfer.md R114). -/
  | jumpOffset (nnn : Addr12)
  /-- Cxnn, RND Vx, nn (42_alu.md R164). -/
  | random (x : Reg) (nn : Byte)
  /-- Dxyn, DRW Vx, Vy, n; n rows, 0-15 (44_devices_timers.md R202). -/
  | draw (x y : Reg) (n : Nat)
  /-- Ex9E, SKP Vx (41_skips.md R135). -/
  | skipIfKeyHeld (x : Reg)
  /-- ExA1, SKNP Vx (41_skips.md R136). -/
  | skipIfKeyNotHeld (x : Reg)
  /-- Fx07, LD Vx, DT (44_devices_timers.md R203). -/
  | readDelayTimer (x : Reg)
  /-- Fx0A, LD Vx, K (44_devices_timers.md R204). -/
  | waitForKeyPress (x : Reg)
  /-- Fx15, LD DT, Vx (44_devices_timers.md R205). -/
  | setDelayTimer (x : Reg)
  /-- Fx18, LD ST, Vx (44_devices_timers.md R206). -/
  | setSoundTimer (x : Reg)
  /-- Fx1E, ADD I, Vx (43_index_memory.md R182). -/
  | addIndex (x : Reg)
  /-- Fx29, LD F, Vx (43_index_memory.md R183). -/
  | loadFontGlyph (x : Reg)
  /-- Fx33, LD B, Vx (43_index_memory.md R185). -/
  | storeBCD (x : Reg)
  /-- Fx55, LD [I], Vx (43_index_memory.md R186). -/
  | storeRegisters (x : Reg)
  /-- Fx65, LD Vx, [I] (43_index_memory.md R187). -/
  | loadRegisters (x : Reg)
deriving DecidableEq, Repr

end Sys2Proof
end

