-- ==== Sys2Proof/WellFormed.lean ====
section
/-! DEFINITION. Which terms of `Instr` are instructions of the core. The types bound every field but one: the row count
n of Dxyn is a natural number, and its field is 4 bits wide, 0-15 (30_encoding.md R81, R83). -/

namespace Sys2Proof

/-- The check of one instruction: the sprite height of a draw is 0-15 (30_encoding.md R83). -/
def Instr.wellFormed : Instr → Bool
  | .draw _ _ n => decide (n < 16)
  | .clearDisplay | .ret | .jump _ | .call _ | .skipIfEqualsByte _ _ | .skipIfNotEqualsByte _ _
  | .skipIfEqualsRegister _ _ | .loadByte _ _ | .addByte _ _ | .move _ _ | .or _ _ | .and _ _ | .xor _ _
  | .add _ _ | .sub _ _ | .shiftRight _ | .subReverse _ _ | .shiftLeft _ | .skipIfNotEqualsRegister _ _
  | .loadIndex _ | .jumpOffset _ | .random _ _ | .skipIfKeyHeld _ | .skipIfKeyNotHeld _ | .readDelayTimer _
  | .waitForKeyPress _ | .setDelayTimer _ | .setSoundTimer _ | .addIndex _ | .loadFontGlyph _ | .storeBCD _
  | .storeRegisters _ | .loadRegisters _ => true

end Sys2Proof
end

