-- ==== Sys2Proof/Decode.lean ====
section
/-! DEFINITION. The decoder (30_encoding.md R80-R92), total on every word and on any bytes, rejecting by name, and after
it the encoder from the same formats. The copy of the opcode map in spec/opcode_table.json stands at the end. -/

namespace Sys2Proof

/-! ## The five fields (30_encoding.md R81) -/

/-- The group, op[15:12] (30_encoding.md R81, R84). -/
def opGroup (op : Word) : BitVec 4 := op.extractLsb' 12 4

/-- Field x = op[11:8], a register index (30_encoding.md R81). -/
def opX (op : Word) : Reg := (op.extractLsb' 8 4).toFin

/-- Field y = op[7:4], a register index (30_encoding.md R81). -/
def opY (op : Word) : Reg := (op.extractLsb' 4 4).toFin

/-- Field n = op[3:0] (30_encoding.md R81). -/
def opN (op : Word) : BitVec 4 := op.extractLsb' 0 4

/-- Field nn = op[7:0] (30_encoding.md R81). -/
def opNN (op : Word) : Byte := op.extractLsb' 0 8

/-- Field nnn = op[11:0] (30_encoding.md R81). -/
def opNNN (op : Word) : Addr12 := op.extractLsb' 0 12

/-! ## The decoder -/

/-- Group 8 dispatches on n (30_encoding.md R88); y is not examined for n = 6 and n = E. -/
def decodeAlu (op : Word) : Option Instr :=
  match opN op with
  | 0x0#4 => some (.move (opX op) (opY op))
  | 0x1#4 => some (.or (opX op) (opY op))
  | 0x2#4 => some (.and (opX op) (opY op))
  | 0x3#4 => some (.xor (opX op) (opY op))
  | 0x4#4 => some (.add (opX op) (opY op))
  | 0x5#4 => some (.sub (opX op) (opY op))
  | 0x6#4 => some (.shiftRight (opX op))
  | 0x7#4 => some (.subReverse (opX op) (opY op))
  | 0xE#4 => some (.shiftLeft (opX op))
  | _ => none

/-- Group E dispatches on the whole byte nn (30_encoding.md R89). -/
def decodeKey (op : Word) : Option Instr :=
  match opNN op with
  | 0x9E#8 => some (.skipIfKeyHeld (opX op))
  | 0xA1#8 => some (.skipIfKeyNotHeld (opX op))
  | _ => none

/-- Group F dispatches on the whole byte nn (30_encoding.md R89). -/
def decodeMisc (op : Word) : Option Instr :=
  match opNN op with
  | 0x07#8 => some (.readDelayTimer (opX op))
  | 0x0A#8 => some (.waitForKeyPress (opX op))
  | 0x15#8 => some (.setDelayTimer (opX op))
  | 0x18#8 => some (.setSoundTimer (opX op))
  | 0x1E#8 => some (.addIndex (opX op))
  | 0x29#8 => some (.loadFontGlyph (opX op))
  | 0x33#8 => some (.storeBCD (opX op))
  | 0x55#8 => some (.storeRegisters (opX op))
  | 0x65#8 => some (.loadRegisters (opX op))
  | _ => none

/-- The decoder: a total, pure function of the word alone; `none` is Unrecognized (30_encoding.md R90). -/
def decode (op : Word) : Option Instr :=
  match opGroup op with
  | 0x0#4 => if op = 0x00E0#16 then some .clearDisplay else if op = 0x00EE#16 then some .ret else none
  | 0x1#4 => some (.jump (opNNN op))
  | 0x2#4 => some (.call (opNNN op))
  | 0x3#4 => some (.skipIfEqualsByte (opX op) (opNN op))
  | 0x4#4 => some (.skipIfNotEqualsByte (opX op) (opNN op))
  | 0x5#4 => if opN op = 0 then some (.skipIfEqualsRegister (opX op) (opY op)) else none
  | 0x6#4 => some (.loadByte (opX op) (opNN op))
  | 0x7#4 => some (.addByte (opX op) (opNN op))
  | 0x8#4 => decodeAlu op
  | 0x9#4 => if opN op = 0 then some (.skipIfNotEqualsRegister (opX op) (opY op)) else none
  | 0xA#4 => some (.loadIndex (opNNN op))
  | 0xB#4 => some (.jumpOffset (opNNN op))
  | 0xC#4 => some (.random (opX op) (opNN op))
  | 0xD#4 => some (.draw (opX op) (opY op) (opN op).toNat)
  | 0xE#4 => decodeKey op
  | _ => decodeMisc op

/-- Why bytes are no instruction: fewer than the two bytes of a word (30_encoding.md R80), or a word that matches no row
of the opcode map (30_encoding.md R92). -/
inductive DecodeError where
  | truncated
  | unrecognized (op : Word)
deriving DecidableEq, Repr

/-- The instruction word of two bytes, big-endian: the first is op[15:8] (20_memory.md R56). -/
def wordOfBytes (hi lo : Byte) : Word := hi ++ lo

/-- The two bytes of an instruction word in memory order (20_memory.md R56). -/
def bytesOfWord (op : Word) : Byte × Byte := (op.extractLsb' 8 8, op.extractLsb' 0 8)

/-- Decoding of any bytes: the first instruction and the bytes after it, or the reason there is none. -/
def decodeBytes : List Byte → Except DecodeError (Instr × List Byte)
  | hi :: lo :: rest =>
    match decode (wordOfBytes hi lo) with
    | some i => .ok (i, rest)
    | none => .error (.unrecognized (wordOfBytes hi lo))
  | _ => .error .truncated

/-! ## The encoder: the formats of 30_encoding.md R82 -/

/-- The 4 bits of a register field. -/
def regBits (r : Reg) : BitVec 4 := BitVec.ofFin r

/-- Format F_NNN: `gggg nnnn nnnn nnnn` (30_encoding.md R82). -/
def formatNNN (g : BitVec 4) (nnn : Addr12) : Word := g ++ nnn

/-- Format F_XNN: `gggg xxxx nnnn nnnn` (30_encoding.md R82); F_X is the same with a sub-operation for nn. -/
def formatXNN (g : BitVec 4) (x : Reg) (nn : Byte) : Word := g ++ regBits x ++ nn

/-- Formats F_XY and F_XYN: `gggg xxxx yyyy ssss` (30_encoding.md R82). -/
def formatXYN (g : BitVec 4) (x y : Reg) (n : BitVec 4) : Word := g ++ regBits x ++ regBits y ++ n

/-- The word of an instruction (30_encoding.md R82, R85). The shifts assemble with y = 0 (30_encoding.md R93). -/
def encode : Instr → Word
  | .clearDisplay => 0x00E0#16
  | .ret => 0x00EE#16
  | .jump nnn => formatNNN 0x1 nnn
  | .call nnn => formatNNN 0x2 nnn
  | .skipIfEqualsByte x nn => formatXNN 0x3 x nn
  | .skipIfNotEqualsByte x nn => formatXNN 0x4 x nn
  | .skipIfEqualsRegister x y => formatXYN 0x5 x y 0x0
  | .loadByte x nn => formatXNN 0x6 x nn
  | .addByte x nn => formatXNN 0x7 x nn
  | .move x y => formatXYN 0x8 x y 0x0
  | .or x y => formatXYN 0x8 x y 0x1
  | .and x y => formatXYN 0x8 x y 0x2
  | .xor x y => formatXYN 0x8 x y 0x3
  | .add x y => formatXYN 0x8 x y 0x4
  | .sub x y => formatXYN 0x8 x y 0x5
  | .shiftRight x => formatXYN 0x8 x 0 0x6
  | .subReverse x y => formatXYN 0x8 x y 0x7
  | .shiftLeft x => formatXYN 0x8 x 0 0xE
  | .skipIfNotEqualsRegister x y => formatXYN 0x9 x y 0x0
  | .loadIndex nnn => formatNNN 0xA nnn
  | .jumpOffset nnn => formatNNN 0xB nnn
  | .random x nn => formatXNN 0xC x nn
  | .draw x y n => formatXYN 0xD x y (BitVec.ofNat 4 n)
  | .skipIfKeyHeld x => formatXNN 0xE x 0x9E
  | .skipIfKeyNotHeld x => formatXNN 0xE x 0xA1
  | .readDelayTimer x => formatXNN 0xF x 0x07
  | .waitForKeyPress x => formatXNN 0xF x 0x0A
  | .setDelayTimer x => formatXNN 0xF x 0x15
  | .setSoundTimer x => formatXNN 0xF x 0x18
  | .addIndex x => formatXNN 0xF x 0x1E
  | .loadFontGlyph x => formatXNN 0xF x 0x29
  | .storeBCD x => formatXNN 0xF x 0x33
  | .storeRegisters x => formatXNN 0xF x 0x55
  | .loadRegisters x => formatXNN 0xF x 0x65

/-! ## The opcode table as (match, mask) pairs -/

/-- The row of spec/opcode_table.json an instruction belongs to: its match and its mask. -/
def tableRow : Instr → Word × Word
  | .clearDisplay => (0x00E0, 0xFFFF)
  | .ret => (0x00EE, 0xFFFF)
  | .jump _ => (0x1000, 0xF000)
  | .call _ => (0x2000, 0xF000)
  | .skipIfEqualsByte _ _ => (0x3000, 0xF000)
  | .skipIfNotEqualsByte _ _ => (0x4000, 0xF000)
  | .skipIfEqualsRegister _ _ => (0x5000, 0xF00F)
  | .loadByte _ _ => (0x6000, 0xF000)
  | .addByte _ _ => (0x7000, 0xF000)
  | .move _ _ => (0x8000, 0xF00F)
  | .or _ _ => (0x8001, 0xF00F)
  | .and _ _ => (0x8002, 0xF00F)
  | .xor _ _ => (0x8003, 0xF00F)
  | .add _ _ => (0x8004, 0xF00F)
  | .sub _ _ => (0x8005, 0xF00F)
  | .shiftRight _ => (0x8006, 0xF00F)
  | .subReverse _ _ => (0x8007, 0xF00F)
  | .shiftLeft _ => (0x800E, 0xF00F)
  | .skipIfNotEqualsRegister _ _ => (0x9000, 0xF00F)
  | .loadIndex _ => (0xA000, 0xF000)
  | .jumpOffset _ => (0xB000, 0xF000)
  | .random _ _ => (0xC000, 0xF000)
  | .draw _ _ _ => (0xD000, 0xF000)
  | .skipIfKeyHeld _ => (0xE09E, 0xF0FF)
  | .skipIfKeyNotHeld _ => (0xE0A1, 0xF0FF)
  | .readDelayTimer _ => (0xF007, 0xF0FF)
  | .waitForKeyPress _ => (0xF00A, 0xF0FF)
  | .setDelayTimer _ => (0xF015, 0xF0FF)
  | .setSoundTimer _ => (0xF018, 0xF0FF)
  | .addIndex _ => (0xF01E, 0xF0FF)
  | .loadFontGlyph _ => (0xF029, 0xF0FF)
  | .storeBCD _ => (0xF033, 0xF0FF)
  | .storeRegisters _ => (0xF055, 0xF0FF)
  | .loadRegisters _ => (0xF065, 0xF0FF)

/-! ## What the host asks of the decoder -/

/-- The word an instruction of `nbits` table bits `w` is: the bits above `nbits` are zero. An instruction is one word
(30_encoding.md R80), so bits above 15 are no part of it. -/
def tableWord (nbits w : Nat) : Word := BitVec.ofNat 16 (w % 2 ^ nbits)

/-- The instruction the decoder reads from the word's bytes as the hardware stores them, big-endian (20_memory.md R56). -/
def decodeTableWord (nbits w : Nat) : Option Instr :=
  match decodeBytes [(bytesOfWord (tableWord nbits w)).1, (bytesOfWord (tableWord nbits w)).2] with
  | .ok (i, _) => some i
  | .error _ => none

end Sys2Proof
end

