-- ==== Sys2Proof/Config.lean ====
section
/-! DEFINITION. The implementation parameters of 00_scope.md R6 and the free values of the spec: the answers of the
external collaborators and the number of ticks between two steps. A free value is a constant WITHOUT a body, so no
proof can see what it is; each is applied to a counter of the state, which makes it fresh (log entries 2 and 3). -/

namespace Sys2Proof.Config

/-- FONT_BASE, where reset places the font (00_scope.md R6, D13). -/
abbrev fontBase : Nat := 0x000

/-- The font's size: 16 glyphs of 5 bytes (00_scope.md R6). -/
abbrev fontSize : Nat := 80

/-- MEM_SIZE, the number of bytes of memory (00_scope.md R6). -/
abbrev memSize : Nat := 4096

/-- PROG_BASE, the program origin and the pc at reset (00_scope.md R6). -/
abbrev progBase : Nat := 0x200

/-- The longest ROM the host may load: 4096 - 0x200 bytes (00_scope.md R6; 20_memory.md R70). -/
abbrev romCapacity : Nat := memSize - progBase

/-- Glyphs 0 to 7 of the default font table (43_index_memory.md R184). -/
def fontLow : Vector Byte 40 := #v[
  0xF0, 0x90, 0x90, 0x90, 0xF0,  0x20, 0x60, 0x20, 0x20, 0x70,
  0xF0, 0x10, 0xF0, 0x80, 0xF0,  0xF0, 0x10, 0xF0, 0x10, 0xF0,
  0x90, 0x90, 0xF0, 0x10, 0x10,  0xF0, 0x80, 0xF0, 0x10, 0xF0,
  0xF0, 0x80, 0xF0, 0x90, 0xF0,  0xF0, 0x10, 0x20, 0x40, 0x40]

/-- Glyphs 8 to F of the default font table (43_index_memory.md R184). -/
def fontHigh : Vector Byte 40 := #v[
  0xF0, 0x90, 0xF0, 0x90, 0xF0,  0xF0, 0x90, 0xF0, 0x10, 0xF0,
  0xF0, 0x90, 0xF0, 0x90, 0x90,  0xE0, 0x90, 0xE0, 0x90, 0xE0,
  0xF0, 0x80, 0x80, 0x80, 0xF0,  0xE0, 0x90, 0x90, 0x90, 0xE0,
  0xF0, 0x80, 0xF0, 0x80, 0xF0,  0xF0, 0x80, 0xF0, 0x80, 0x80]

/-- The default of the parameter FONT_GLYPHS (43_index_memory.md R184, D14; PRESUMED: the spec marks the table general
knowledge, log entry 5). A statement that needs these bytes names this table. -/
def defaultGlyphs : Vector Byte fontSize := fontLow ++ fontHigh

/-- Free value: the Display's answer to the n-th question put to the outside, a draw of `rows` at (x, y)
(60_exceptions.md R241). -/
opaque collision : Nat → Byte → Byte → List Byte → Bool

/-- Free value: the Keyboard's answer to the n-th question, whether key k is held (60_exceptions.md R242). -/
opaque keyHeld : Nat → Byte → Bool

/-- Free value: the Keyboard's answer to the n-th question, which key is held, if any (60_exceptions.md R243). -/
opaque keyWait : Nat → Option Byte

/-- Free value: the random byte drawn as the n-th question (60_exceptions.md R244). -/
opaque randomByte : Nat → Byte

/-- Free value: how many ticks the scheduler orders before a step (60_exceptions.md R237). -/
opaque ticksBefore : Nat → Nat

end Sys2Proof.Config
end

