-- ==== Sys2Proof/Machine/State.lean ====
section
/-! DEFINITION. The state of the core as plain data (10_state.md; 20_memory.md R50), the reasons a step can stop, and the
state right after reset (10_state.md R36; 70_reset_and_hazards.md R260). -/

namespace Sys2Proof.Machine

/-- The cause codes of the FAULT register (10_state.md R33). The codes 5-7 are reserved and never written, so no name
stands for them. -/
inductive FaultCode where
  /-- 0: no fault taken. -/
  | none
  /-- 1: the fetched word matches no instruction (30_encoding.md R90). -/
  | decodeFail
  /-- 2: 2nnn with SP = 16 (10_state.md R31). -/
  | stackOverflow
  /-- 3: 00EE with SP = 0 (10_state.md R31). -/
  | stackUnderflow
  /-- 4: a memory access at an address above 0xFFF (20_memory.md R57). -/
  | memRange
deriving DecidableEq, Repr

/-- Why a step stops. The core's own faults (DECODE_FAIL and the others) do not stop the model: taking one is a next
state (60_exceptions.md R225; log entry 1). -/
inductive Fault where
  /-- Raised by the instruction step of a core with HALTED = 1, whose cause code it repeats: no step exists until reset
  (60_exceptions.md R221). Safe: the hardware makes no step either. -/
  | halted (code : FaultCode)
deriving DecidableEq, Repr

/-- Why there is no meaning. -/
inductive Refusal where
  /-- Raised by an arm of `exec` whose instruction has no meaning yet; no arm raises it now. Safe: it claims nothing. -/
  | notModelled (mnemonic : String)
  /-- Raised by the host load event (never by a step) for a ROM longer than 3584 bytes: the load is refused before any byte
  is written (20_memory.md R70; 60_exceptions.md R228). Safe: the hardware refuses it too. -/
  | romTooLong
  /-- Raised by the host load event (never by a step) where the load port is closed: after the first step or the load, until the
  next reset (20_memory.md R70, R71; log entry 11). Safe: no such event exists on the hardware. -/
  | loadClosed
deriving DecidableEq, Repr

/-- The core's memory (20_memory.md R50). `glyphs` is the parameter FONT_GLYPHS (43_index_memory.md R184), which reset
copies to FONT_BASE and nothing writes; `cells` lists, at strictly rising addresses, the bytes that differ from what reset
leaves there (log entry 8). -/
structure Memory where
  glyphs : Vector Byte Config.fontSize
  cells : List Host.Cell
deriving DecidableEq, Repr

/-- A query or request of the core to an external collaborator (60_exceptions.md R240-R244, R248). -/
inductive Request where
  /-- `Display.clear()` (60_exceptions.md R240). -/
  | clear
  /-- `Display.draw(x, y, rows)` (60_exceptions.md R241). -/
  | draw (x y : Byte) (rows : List Byte)
  /-- `Key.is_held(k)` (60_exceptions.md R242). -/
  | isHeld (k : Byte)
  /-- `Key.currently_held()` (60_exceptions.md R243). -/
  | currentlyHeld
  /-- `RandomByte()` (60_exceptions.md R244). -/
  | randomByte
deriving DecidableEq, Repr

/-- What the outside world will answer (the model's own field, log entries 2, 3 and 7): the listed answers are used first,
in order; where a list has run out, the answer is the free value of Config at the counter `drawn`. -/
structure Inputs where
  /-- How many ticks come before each of the next steps (60_exceptions.md R237). -/
  ticks : List Nat
  /-- Answers to the next `Display.draw` queries (60_exceptions.md R241). -/
  collisions : List Bool
  /-- Answers to the next `Key.is_held` queries (60_exceptions.md R242). -/
  keysHeld : List Bool
  /-- Answers to the next `Key.currently_held` queries (60_exceptions.md R243). -/
  keyWaits : List (Option Byte)
  /-- The next random draws (60_exceptions.md R244). -/
  randoms : List Byte
  /-- How many answers the outside has given so far: what makes each free value fresh. -/
  drawn : Nat
deriving DecidableEq, Repr

/-- The whole state: the spec's (10_state.md, 20_memory.md R50), then the model's own three fields. -/
structure State where
  /-- V0-VF (10_state.md R20). -/
  v : Vector Byte 16
  /-- I (10_state.md R24). -/
  i : Word
  /-- The program counter (10_state.md R25). -/
  pc : Word
  /-- stack[0..15] (10_state.md R29). -/
  stack : Vector Word 16
  /-- SP, the number of valid entries, 0-16 (10_state.md R30). -/
  sp : Fin 17
  /-- DT (10_state.md R32). -/
  dt : Byte
  /-- ST (10_state.md R32). -/
  st : Byte
  /-- Memory (20_memory.md R50). -/
  mem : Memory
  /-- HALTED (10_state.md R33). -/
  halted : Bool
  /-- FAULT (10_state.md R33). -/
  fault : FaultCode
  /-- FAULT_PC (10_state.md R33). -/
  faultPc : Word
  /-- FAULT_OP (10_state.md R33). -/
  faultOp : Word
  /-- The outside world's answers to come (the model's own, log entry 3). -/
  inputs : Inputs
  /-- What the core has asked its collaborators, newest first (the model's own, log entry 4). -/
  requests : List Request
  /-- May the host load now? True from reset until the load or the first step (20_memory.md R70, R71; the model's own, log
  entry 11). -/
  loadOpen : Bool
deriving DecidableEq, Repr

/-- What a step answers. -/
abbrev Result := Host.Outcome State Fault Refusal

/-- The state after reset for a font table `glyphs` (10_state.md R36; 70_reset_and_hazards.md R260). -/
def State.resetWith (glyphs : Vector Byte Config.fontSize) : State where
  v := Vector.replicate 16 0
  i := 0
  pc := BitVec.ofNat 16 Config.progBase
  stack := Vector.replicate 16 0
  sp := 0
  dt := 0
  st := 0
  mem := ⟨glyphs, []⟩
  halted := false
  fault := .none
  faultPc := 0
  faultOp := 0
  inputs := ⟨[], [], [], [], [], 0⟩
  requests := []
  loadOpen := true

/-- The state right after reset, with the default of the parameter FONT_GLYPHS (43_index_memory.md R184; log entry 5). -/
def State.reset : State := State.resetWith Config.defaultGlyphs

end Sys2Proof.Machine
end

