-- ==== Sys2Proof/Machine/Memory.lean ====
section
/-! DEFINITION. The operations over memory (20_memory.md R50-R61): reading and writing one byte, a block of bytes, and
the canonical form of the list that holds it. -/

namespace Sys2Proof.Machine

/-- What an address that is not listed reads as: what reset leaves there, the font at FONT_BASE and zero everywhere else
(10_state.md R36; 20_memory.md R51). -/
def Memory.unlisted (m : Memory) (a : Nat) : Byte :=
  if h : Config.fontBase ≤ a ∧ a < Config.fontBase + Config.fontSize then
    m.glyphs[a - Config.fontBase]'(by omega)
  else 0

/-- The listed byte at an address, if there is one. -/
def lookupCell (a : Nat) : List Host.Cell → Option Byte
  | [] => none
  | (b, w) :: rest => if b = a then some w else lookupCell a rest

/-- List a byte at its place among rising addresses. -/
def putCell (a : Nat) (w : Byte) : List Host.Cell → List Host.Cell
  | [] => [(a, w)]
  | (b, u) :: rest =>
    if a < b then (a, w) :: (b, u) :: rest
    else if b = a then (a, w) :: rest
    else (b, u) :: putCell a w rest

/-- Take an address off the list. -/
def dropCell (a : Nat) : List Host.Cell → List Host.Cell
  | [] => []
  | (b, u) :: rest => if b = a then dropCell a rest else (b, u) :: dropCell a rest

/-- `MemRead(a, 1)` (20_memory.md R55). The caller has checked a ≤ 0xFFF (20_memory.md R57). -/
def Memory.read (m : Memory) (a : Nat) : Byte := (lookupCell a m.cells).getD (m.unlisted a)

/-- `MemWrite(a, 1, w)` (20_memory.md R55): writing what the address reads as unlisted takes it off the list, so that equal
memories stay equal data. The caller has checked a ≤ 0xFFF (20_memory.md R57). -/
def Memory.write (m : Memory) (a : Nat) (w : Byte) : Memory :=
  if w = m.unlisted a then { m with cells := dropCell a m.cells } else { m with cells := putCell a w m.cells }

/-- The bytes at a, a+1, ..., a+n-1 in ascending order (20_memory.md R60). -/
def Memory.readBytes (m : Memory) (a : Nat) : Nat → List Byte
  | 0 => []
  | n + 1 => m.read a :: m.readBytes (a + 1) n

/-- Write bytes to a, a+1, ... in ascending order (20_memory.md R60). -/
def Memory.writeBytes (m : Memory) (a : Nat) : List Byte → Memory
  | [] => m
  | w :: rest => (m.write a w).writeBytes (a + 1) rest

/-- The canonical form: addresses strictly rising and below 4096 (20_memory.md R50), no byte listed that reads the same
unlisted. -/
abbrev Memory.Wf (m : Memory) : Prop :=
  m.cells.Pairwise (fun c d => c.1 < d.1) ∧ ∀ c ∈ m.cells, c.1 < Config.memSize ∧ c.2 ≠ m.unlisted c.1

/-- The range check of 20_memory.md R57: is the highest byte address of an access, an unbounded sum, above 0xFFF? -/
def outOfMemory (last : Nat) : Bool := decide (0xFFF < last)

end Sys2Proof.Machine
end

