-- ==== Sys2Proof/Machine/Ops.lean ====
section
/-! DEFINITION. The named operations over the state: registers, the pc, the call stack (10_state.md R31), TAKING A FAULT
(60_exceptions.md R225; there is no return from one, R231), the fetch (20_memory.md R56), the timers' tick
(60_exceptions.md R236), and the host's load and reset events (20_memory.md R70; 70_reset_and_hazards.md R260). -/

namespace Sys2Proof.Machine

/-! ## Registers and the pc -/

/-- `V[x]` (10_state.md R20). -/
def State.readV (s : State) (x : Reg) : Byte := s.v[x]

/-- `V[x] <- b` (10_state.md R20). -/
def State.writeV (s : State) (x : Reg) (b : Byte) : State := { s with v := s.v.set x b }

/-- `I <- a` (10_state.md R24). -/
def State.writeI (s : State) (a : Word) : State := { s with i := a }

/-- `pc <- a` (10_state.md R25): stored as computed, never masked (R27). -/
def State.writePc (s : State) (a : Word) : State := { s with pc := a }

/-- The default next pc, `pc +16 2` (10_state.md R26). -/
def State.advance (s : State) : State := s.writePc (s.pc + 2)

/-- The next pc of a skip: `pc +16 4` when the condition holds, else `pc +16 2` (41_skips.md R130). -/
def State.skipIf (s : State) (cond : Bool) : State := s.writePc (if cond then s.pc + 4 else s.pc + 2)

/-- `DT <- b` (10_state.md R32). -/
def State.writeDt (s : State) (b : Byte) : State := { s with dt := b }

/-- `ST <- b` (10_state.md R32). -/
def State.writeSt (s : State) (b : Byte) : State := { s with st := b }

/-- Replace memory. -/
def State.writeMem (s : State) (m : Memory) : State := { s with mem := m }

/-! ## Status registers as the host reads them -/

/-- SP as the 5-bit register (10_state.md R30). -/
def State.spBits (s : State) : BitVec 5 := BitVec.ofNat 5 s.sp.val

/-- The 3-bit code of the FAULT register (10_state.md R33). -/
def FaultCode.bits : FaultCode → BitVec 3
  | .none => 0
  | .decodeFail => 1
  | .stackOverflow => 2
  | .stackUnderflow => 3
  | .memRange => 4

/-! ## The call stack -/

/-- `Push(a)`; nothing where SP = 16 (10_state.md R31). -/
def State.push (s : State) (a : Word) : Option State :=
  if h : s.sp.val < 16 then
    some { s with stack := s.stack.set s.sp.val a, sp := ⟨s.sp.val + 1, by omega⟩ }
  else none

/-- `Pop()`: the address returned and the state after; nothing where SP = 0 (10_state.md R31). The entry stays where it
was, no longer valid. -/
def State.pop (s : State) : Option (Word × State) :=
  if h : 0 < s.sp.val then
    some (s.stack[s.sp.val - 1], { s with sp := ⟨s.sp.val - 1, by omega⟩ })
  else none

/-! ## Taking a fault -/

/-- `raise Fault(code)`: the whole of trap entry. Only the four status registers are written; `op` is the word of the
faulting step, or 0 where the fetch itself faulted (60_exceptions.md R225). -/
def State.raiseFault (s : State) (code : FaultCode) (op : Word) : State :=
  { s with halted := true, fault := code, faultPc := s.pc, faultOp := op }

/-- An access whose highest byte address is `last`: MEM_RANGE before anything is done where it is above 0xFFF, else what
the instruction does (20_memory.md R57; 60_exceptions.md R224). -/
def State.checked (s : State) (last : Nat) (op : Word) (done : State) : Result :=
  if outOfMemory last then .next (s.raiseFault .memRange op) else .next done

/-! ## The fetch -/

/-- Can a word be fetched at the pc? Not above 0xFFE (60_exceptions.md R222). -/
def State.fetchable (s : State) : Bool := decide (s.pc.toNat ≤ 0xFFE)

/-- The word at the pc, big-endian (20_memory.md R56). -/
def State.fetchWord (s : State) : Word :=
  wordOfBytes (s.mem.read s.pc.toNat) (s.mem.read (s.pc.toNat + 1))

/-- Place a word at an address, big-endian (20_memory.md R56). -/
def State.placeWord (s : State) (a : Nat) (op : Word) : State :=
  s.writeMem (s.mem.writeBytes a [(bytesOfWord op).1, (bytesOfWord op).2])

/-! ## The timers -/

/-- n ticks of one timer: it counts down and stops at zero (60_exceptions.md R236). -/
def countDown (n : Nat) (t : Byte) : Byte := if t = 0 then 0 else BitVec.ofNat 8 (t.toNat - n)

/-- One tick: `if DT > 0 then DT <- DT - 1` and the same of ST (60_exceptions.md R236). -/
def State.tick (s : State) : State :=
  { s with dt := if s.dt = 0 then 0 else s.dt - 1, st := if s.st = 0 then 0 else s.st - 1 }

/-- n ticks in a row. -/
def State.ticks (s : State) (n : Nat) : State := { s with dt := countDown n s.dt, st := countDown n s.st }

/-- How many ticks the scheduler orders before the next step: the listed number, else a free value (60_exceptions.md R237). -/
def State.ticksDue (s : State) : Nat := s.inputs.ticks.headD (Config.ticksBefore s.inputs.drawn)

/-- The scheduler's order used up for one step. -/
def State.ticksTaken (s : State) : State :=
  { s with inputs := { s.inputs with ticks := s.inputs.ticks.tail, drawn := s.inputs.drawn + 1 } }

/-- The host's load port closed: the load has come, or a step has been issued (20_memory.md R70, R71). -/
def State.closeLoad (s : State) : State := { s with loadOpen := false }

/-- The state the next instruction step starts from: the ticks ordered before it have happened (60_exceptions.md R237), and no
load can come any more (20_memory.md R70). -/
def State.beforeStep (s : State) : State := (s.ticksTaken.ticks s.ticksDue).closeLoad

/-! ## Host events -/

/-- Reset: every piece of core state to its reset value (70_reset_and_hazards.md R260), for the machine's own FONT_GLYPHS.
The outside world is not reset and is asked nothing; the host may load again (20_memory.md R70). -/
def State.resetCore (s : State) : State :=
  { State.resetWith s.mem.glyphs with inputs := s.inputs, requests := s.requests }

/-- The host load: rom[k] to memory[0x200 + k], all or nothing, once, after reset and before the first step; at any other time it
is refused, and so is a longer ROM than 3584 bytes (20_memory.md R70, R71; 60_exceptions.md R228; log entry 11). -/
def State.hostLoad (s : State) (rom : List Byte) : Result :=
  if s.loadOpen then
    if rom.length ≤ Config.romCapacity then .next (s.writeMem (s.mem.writeBytes Config.progBase rom)).closeLoad
    else .refused .romTooLong
  else .refused .loadClosed

/-- The state `withFetchWord` places its word in: where no step could fetch (a pc above 0xFFE, a halted core) the pc is put
at the program origin and the status registers at their reset values; else s itself (log entry 10). -/
def State.readyToFetch (s : State) : State :=
  let p := if s.fetchable then s else s.writePc (BitVec.ofNat 16 Config.progBase)
  if p.halted then { p with halted := false, fault := .none, faultPc := 0, faultOp := 0 } else p

end Sys2Proof.Machine
end

