-- ==== Sys2Proof/Machine/Collaborators.lean ====
section
/-! DEFINITION. The queries to the external collaborators (60_exceptions.md R240-R244): for each, the answer, which is an
input of the step (a listed one, else a free value of Config), and the state after the query was issued, where the answer
is used up and the query logged. -/

namespace Sys2Proof.Machine

/-- `Display.clear()` issued: a request with no answer (60_exceptions.md R240). -/
def State.askClear (s : State) : State := { s with requests := .clear :: s.requests }

/-- The answer to `Display.draw(x, y, rows)` (60_exceptions.md R241). -/
def State.collisionAnswer (s : State) (x y : Byte) (rows : List Byte) : Bool :=
  s.inputs.collisions.headD (Config.collision s.inputs.drawn x y rows)

/-- `Display.draw(x, y, rows)` issued (60_exceptions.md R241). -/
def State.askDraw (s : State) (x y : Byte) (rows : List Byte) : State :=
  { s with
    inputs := { s.inputs with collisions := s.inputs.collisions.tail, drawn := s.inputs.drawn + 1 }
    requests := .draw x y rows :: s.requests }

/-- The answer to `Key.is_held(k)`, free for every k (60_exceptions.md R242). -/
def State.keyHeldAnswer (s : State) (k : Byte) : Bool :=
  s.inputs.keysHeld.headD (Config.keyHeld s.inputs.drawn k)

/-- `Key.is_held(k)` issued (60_exceptions.md R242). -/
def State.askKeyHeld (s : State) (k : Byte) : State :=
  { s with
    inputs := { s.inputs with keysHeld := s.inputs.keysHeld.tail, drawn := s.inputs.drawn + 1 }
    requests := .isHeld k :: s.requests }

/-- The answer to `Key.currently_held()` (60_exceptions.md R243). -/
def State.keyWaitAnswer (s : State) : Option Byte :=
  s.inputs.keyWaits.headD (Config.keyWait s.inputs.drawn)

/-- `Key.currently_held()` issued (60_exceptions.md R243). -/
def State.askKeyWait (s : State) : State :=
  { s with
    inputs := { s.inputs with keyWaits := s.inputs.keyWaits.tail, drawn := s.inputs.drawn + 1 }
    requests := .currentlyHeld :: s.requests }

/-- The byte `RandomByte()` draws (60_exceptions.md R244). -/
def State.randomAnswer (s : State) : Byte :=
  s.inputs.randoms.headD (Config.randomByte s.inputs.drawn)

/-- `RandomByte()` drawn (60_exceptions.md R244). -/
def State.askRandom (s : State) : State :=
  { s with
    inputs := { s.inputs with randoms := s.inputs.randoms.tail, drawn := s.inputs.drawn + 1 }
    requests := .randomByte :: s.requests }

end Sys2Proof.Machine
end

