-- ==== Sys2Proof/Machine/Operands.lean ====
section
/-! DEFINITION. The operand forms (30_encoding.md R83; 00_scope.md R8): zero-extensions, the address sums of the index
instructions, the decimal digits of Fx33 and the register blocks of Fx55 and Fx65. Every operand is read from the state
before the instruction writes anything (00_scope.md R10). -/

namespace Sys2Proof.Machine

/-- `zext_16` of a byte (00_scope.md R8). -/
def zextByte (b : Byte) : Word := b.setWidth 16

/-- `zext_16(nnn)` (30_encoding.md R83). -/
def zextAddr (nnn : Addr12) : Word := nnn.setWidth 16

/-- The address of the font glyph for a digit: `FONT_BASE +16 5 × zext_16(d)`, not masked (43_index_memory.md R183). -/
def glyphAddress (d : Byte) : Word := BitVec.ofNat 16 Config.fontBase + 5 * zextByte d

/-- The hundreds, tens and units of a byte (43_index_memory.md R185). -/
def bcdDigits (b : Byte) : List Byte :=
  [BitVec.ofNat 8 (b.toNat / 100), BitVec.ofNat 8 (b.toNat / 10 % 10), BitVec.ofNat 8 (b.toNat % 10)]

/-- V0 ... Vx in register order, the bytes Fx55 stores (43_index_memory.md R186). -/
def State.registerBlock (s : State) (x : Reg) : List Byte := s.v.toList.take (x.val + 1)

/-- V0 ... Vx loaded from memory at a, a+1, ..., a+x; the registers above x unchanged (43_index_memory.md R187). -/
def State.loadBlock (s : State) (a : Nat) (x : Reg) : State :=
  { s with v := Vector.ofFn fun k : Reg => if k ≤ x then s.mem.read (a + k.val) else s.readV k }

/-- I advanced by the x + 1 bytes of a register block, modulo 65536 (43_index_memory.md R186, R187). -/
def State.advanceI (s : State) (x : Reg) : State := s.writeI (s.i + BitVec.ofNat 16 (x.val + 1))

end Sys2Proof.Machine
end

