-- ==== Sys2Proof/Machine/Flags.lean ====
section
/-! DEFINITION. The flag computations: VF is the only flag (10_state.md R23). Each takes the operands latched before the
instruction writes anything (42_alu.md R150). -/

namespace Sys2Proof.Machine

/-- `zext_8` of a flag bit: 0x01 or 0x00 (42_alu.md R150). -/
def flagByte (f : Bool) : Byte := if f then 0x01 else 0x00

/-- `s = zext_9(a) + zext_9(b)`, the 9-bit sum (42_alu.md R159). -/
def sum9 (a b : Byte) : BitVec 9 := a.setWidth 9 + b.setWidth 9

/-- The carry of an addition: the 9-bit sum exceeds 255 (42_alu.md R159). -/
def carry (a b : Byte) : Bool := decide (0xFF#9 < sum9 a b)

/-- NOT borrow of a - b: a ≥ b, unsigned (42_alu.md R160, R162; C11). -/
def notBorrow (a b : Byte) : Bool := decide (b ≤ a)

/-- The bit a right shift by one shifts out: bit 0 (42_alu.md R161). -/
def lowBit (a : Byte) : Bool := a.getLsbD 0

/-- The bit a left shift by one shifts out: bit 7 (42_alu.md R163). -/
def highBit (a : Byte) : Bool := a.getLsbD 7

/-- The end of an instruction that writes a result and no flag: `V[x] <- r`, pc +16 2 (42_alu.md R150). -/
def State.finish (s : State) (x : Reg) (r : Byte) : State := (s.writeV x r).advance

/-- The end of a flag-setting instruction: the result first, the flag second, so that with x = 0xF VF ends as the flag
(42_alu.md R150), then pc +16 2. -/
def State.finishFlag (s : State) (x : Reg) (r : Byte) (f : Bool) : State :=
  ((s.writeV x r).writeV VF (flagByte f)).advance

end Sys2Proof.Machine
end

