-- ==== Sys2Proof/Machine/Alu.lean ====
section
/-! DEFINITION. Register loads and the ALU: 6xnn, 7xnn, 8xy0-8xy7, 8xyE, Cxnn (42_alu.md R150-R164). -/

namespace Sys2Proof.Machine

/-- LD Vx, nn (42_alu.md R153). -/
def execLoadByte (x : Reg) (nn : Byte) (s : State) : Result := .next (s.finish x nn)

/-- ADD Vx, nn: modulo 256, no flag (42_alu.md R154). -/
def execAddByte (x : Reg) (nn : Byte) (s : State) : Result := .next (s.finish x (s.readV x + nn))

/-- LD Vx, Vy (42_alu.md R155). -/
def execMove (x y : Reg) (s : State) : Result := .next (s.finish x (s.readV y))

/-- OR Vx, Vy (42_alu.md R156). -/
def execOr (x y : Reg) (s : State) : Result := .next (s.finish x (s.readV x ||| s.readV y))

/-- AND Vx, Vy (42_alu.md R157). -/
def execAnd (x y : Reg) (s : State) : Result := .next (s.finish x (s.readV x &&& s.readV y))

/-- XOR Vx, Vy (42_alu.md R158). -/
def execXor (x y : Reg) (s : State) : Result := .next (s.finish x (s.readV x ^^^ s.readV y))

/-- ADD Vx, Vy: the low byte of the 9-bit sum; VF the carry (42_alu.md R159). -/
def execAdd (x y : Reg) (s : State) : Result :=
  .next (s.finishFlag x ((sum9 (s.readV x) (s.readV y)).setWidth 8) (carry (s.readV x) (s.readV y)))

/-- SUB Vx, Vy: Vx - Vy; VF is NOT borrow (42_alu.md R160). -/
def execSub (x y : Reg) (s : State) : Result :=
  .next (s.finishFlag x (s.readV x - s.readV y) (notBorrow (s.readV x) (s.readV y)))

/-- SHR Vx: right by one, bit 7 becomes 0; VF the bit shifted out (42_alu.md R161). -/
def execShiftRight (x : Reg) (s : State) : Result :=
  .next (s.finishFlag x (s.readV x >>> 1) (lowBit (s.readV x)))

/-- SUBN Vx, Vy: Vy - Vx; VF is NOT borrow, of the operands before the instruction (42_alu.md R162; C8). -/
def execSubReverse (x y : Reg) (s : State) : Result :=
  .next (s.finishFlag x (s.readV y - s.readV x) (notBorrow (s.readV y) (s.readV x)))

/-- SHL Vx: left by one, modulo 256; VF the bit shifted out (42_alu.md R163). -/
def execShiftLeft (x : Reg) (s : State) : Result :=
  .next (s.finishFlag x (s.readV x <<< 1) (highBit (s.readV x)))

/-- RND Vx, nn: one fresh random byte AND nn; no flag (42_alu.md R164). -/
def execRandom (x : Reg) (nn : Byte) (s : State) : Result :=
  .next (s.askRandom.finish x (s.randomAnswer &&& nn))

end Sys2Proof.Machine
end

