-- ==== Sys2Proof/Machine/Control.lean ====
section
/-! DEFINITION. Control transfer: 00EE, 1nnn, 2nnn, Bnnn (40_control_transfer.md R110-R114). -/

namespace Sys2Proof.Machine

/-- RET: `a = Pop(); pc <- a +16 2`; STACK_UNDERFLOW where SP = 0 (40_control_transfer.md R111). -/
def execRet (s : State) : Result :=
  match s.pop with
  | none => .next (s.raiseFault .stackUnderflow (encode .ret))
  | some (a, t) => .next (t.writePc (a + 2))

/-- JP nnn: `pc <- zext_16(nnn)` (40_control_transfer.md R112). -/
def execJump (nnn : Addr12) (s : State) : Result := .next (s.writePc (zextAddr nnn))

/-- CALL nnn: `Push(pc); pc <- zext_16(nnn)`, pushing the address of this call; STACK_OVERFLOW where SP = 16
(40_control_transfer.md R113). -/
def execCall (nnn : Addr12) (s : State) : Result :=
  match s.push s.pc with
  | none => .next (s.raiseFault .stackOverflow (encode (.call nnn)))
  | some t => .next (t.writePc (zextAddr nnn))

/-- JP V0, nnn: `pc <- zext_16(nnn) +16 zext_16(V0)`, not masked (40_control_transfer.md R114). -/
def execJumpOffset (nnn : Addr12) (s : State) : Result :=
  .next (s.writePc (zextAddr nnn + zextByte (s.readV V0)))

end Sys2Proof.Machine
end

