-- ==== Sys2Proof/Machine/Devices.lean ====
section
/-! DEFINITION. Display, keyboard and timer instructions: 00E0, Dxyn, Fx07, Fx0A, Fx15, Fx18 (44_devices_timers.md
R200-R206). -/

namespace Sys2Proof.Machine

/-- CLS: `Display.clear()` is issued, pc +16 2 (44_devices_timers.md R201). -/
def execClearDisplay (s : State) : Result := .next s.askClear.advance

/-- The draw of Dxyn after its range check: the n bytes at I as rows, one query, VF the collision answer
(44_devices_timers.md R202). The coordinates and rows are latched before VF is written. -/
def State.drawRows (s : State) (x y : Reg) (n : Nat) : State :=
  let rows := s.mem.readBytes s.i.toNat n
  let hit := s.collisionAnswer (s.readV x) (s.readV y) rows
  ((s.askDraw (s.readV x) (s.readV y) rows).writeV VF (flagByte hit)).advance

/-- DRW Vx, Vy, n: MEM_RANGE where n ≥ 1 and I + n - 1 > 0xFFF; with n = 0 no byte is read and nothing is checked
(44_devices_timers.md R202; 20_memory.md R57). -/
def execDraw (x y : Reg) (n : Nat) (s : State) : Result :=
  match n with
  | 0 => .next (s.drawRows x y 0)
  | k + 1 => s.checked (s.i.toNat + k) (encode (.draw x y (k + 1))) (s.drawRows x y (k + 1))

/-- LD Vx, DT (44_devices_timers.md R203). -/
def execReadDelayTimer (x : Reg) (s : State) : Result := .next (s.finish x s.dt)

/-- LD Vx, K: one query `Key.currently_held()`; the answered key to Vx, or a stall that leaves the pc where it is
(44_devices_timers.md R204). -/
def execWaitForKeyPress (x : Reg) (s : State) : Result :=
  match s.keyWaitAnswer with
  | none => .next s.askKeyWait
  | some k => .next (s.askKeyWait.finish x k)

/-- LD DT, Vx (44_devices_timers.md R205). -/
def execSetDelayTimer (x : Reg) (s : State) : Result := .next ((s.writeDt (s.readV x)).advance)

/-- LD ST, Vx (44_devices_timers.md R206). -/
def execSetSoundTimer (x : Reg) (s : State) : Result := .next ((s.writeSt (s.readV x)).advance)

end Sys2Proof.Machine
end

