-- ==== Sys2Proof/Machine/IndexMemory.lean ====
section
/-! DEFINITION. The index register and memory transfers: Annn, Fx1E, Fx29, Fx33, Fx55, Fx65 (43_index_memory.md
R180-R187). The whole range is checked before any byte moves (20_memory.md R57). -/

namespace Sys2Proof.Machine

/-- LD I, nnn: `I <- zext_16(nnn)` (43_index_memory.md R181). -/
def execLoadIndex (nnn : Addr12) (s : State) : Result := .next ((s.writeI (zextAddr nnn)).advance)

/-- ADD I, Vx: modulo 65536, no flag, no memory access (43_index_memory.md R182). -/
def execAddIndex (x : Reg) (s : State) : Result := .next ((s.writeI (s.i + zextByte (s.readV x))).advance)

/-- LD F, Vx: I to the glyph of Vx, not masked (43_index_memory.md R183). -/
def execLoadFontGlyph (x : Reg) (s : State) : Result := .next ((s.writeI (glyphAddress (s.readV x))).advance)

/-- LD B, Vx: the three decimal digits of Vx to I, I+1, I+2; I unchanged (43_index_memory.md R185). -/
def execStoreBCD (x : Reg) (s : State) : Result :=
  s.checked (s.i.toNat + 2) (encode (.storeBCD x))
    (s.writeMem (s.mem.writeBytes s.i.toNat (bcdDigits (s.readV x)))).advance

/-- LD [I], Vx: V0 ... Vx to I ... I+x, then I advanced by x + 1 (43_index_memory.md R186). -/
def execStoreRegisters (x : Reg) (s : State) : Result :=
  s.checked (s.i.toNat + x.val) (encode (.storeRegisters x))
    ((s.writeMem (s.mem.writeBytes s.i.toNat (s.registerBlock x))).advanceI x).advance

/-- LD Vx, [I]: V0 ... Vx from I ... I+x, then I advanced by x + 1 (43_index_memory.md R187). -/
def execLoadRegisters (x : Reg) (s : State) : Result :=
  s.checked (s.i.toNat + x.val) (encode (.loadRegisters x))
    ((s.loadBlock s.i.toNat x).advanceI x).advance

end Sys2Proof.Machine
end

