-- ==== Sys2Proof/Machine/Skips.lean ====
section
/-! DEFINITION. Conditional skips: 3xnn, 4xnn, 5xy0, 9xy0, Ex9E, ExA1 (41_skips.md R130-R136). -/

namespace Sys2Proof.Machine

/-- SE Vx, nn: skip if Vx = nn (41_skips.md R131). -/
def execSkipIfEqualsByte (x : Reg) (nn : Byte) (s : State) : Result := .next (s.skipIf (s.readV x == nn))

/-- SNE Vx, nn: skip if Vx ≠ nn (41_skips.md R132). -/
def execSkipIfNotEqualsByte (x : Reg) (nn : Byte) (s : State) : Result := .next (s.skipIf (s.readV x != nn))

/-- SE Vx, Vy: skip if Vx = Vy (41_skips.md R133). -/
def execSkipIfEqualsRegister (x y : Reg) (s : State) : Result := .next (s.skipIf (s.readV x == s.readV y))

/-- SNE Vx, Vy: skip if Vx ≠ Vy (41_skips.md R134). -/
def execSkipIfNotEqualsRegister (x y : Reg) (s : State) : Result := .next (s.skipIf (s.readV x != s.readV y))

/-- SKP Vx: one query `Key.is_held(Vx)`; skip if it answers yes (41_skips.md R135). -/
def execSkipIfKeyHeld (x : Reg) (s : State) : Result :=
  .next ((s.askKeyHeld (s.readV x)).skipIf (s.keyHeldAnswer (s.readV x)))

/-- SKNP Vx: one query `Key.is_held(Vx)`; skip if it answers no (41_skips.md R136). -/
def execSkipIfKeyNotHeld (x : Reg) (s : State) : Result :=
  .next ((s.askKeyHeld (s.readV x)).skipIf (!s.keyHeldAnswer (s.readV x)))

end Sys2Proof.Machine
end

