-- ==== Sys2Proof/Machine/Dispatch.lean ====
section
/-! DEFINITION. One arm per instruction: the meaning of each (30_encoding.md R85). -/

namespace Sys2Proof.Machine

/-- What an instruction does at a state (60_exceptions.md R220, "execute ins by its rule"). -/
def exec (i : Instr) (s : State) : Host.Outcome State Fault Refusal :=
  match i with
  | .clearDisplay => Sys2Proof.Machine.execClearDisplay s
  | .ret => Sys2Proof.Machine.execRet s
  | .jump nnn => Sys2Proof.Machine.execJump nnn s
  | .call nnn => Sys2Proof.Machine.execCall nnn s
  | .skipIfEqualsByte x nn => Sys2Proof.Machine.execSkipIfEqualsByte x nn s
  | .skipIfNotEqualsByte x nn => Sys2Proof.Machine.execSkipIfNotEqualsByte x nn s
  | .skipIfEqualsRegister x y => Sys2Proof.Machine.execSkipIfEqualsRegister x y s
  | .loadByte x nn => Sys2Proof.Machine.execLoadByte x nn s
  | .addByte x nn => Sys2Proof.Machine.execAddByte x nn s
  | .move x y => Sys2Proof.Machine.execMove x y s
  | .or x y => Sys2Proof.Machine.execOr x y s
  | .and x y => Sys2Proof.Machine.execAnd x y s
  | .xor x y => Sys2Proof.Machine.execXor x y s
  | .add x y => Sys2Proof.Machine.execAdd x y s
  | .sub x y => Sys2Proof.Machine.execSub x y s
  | .shiftRight x => Sys2Proof.Machine.execShiftRight x s
  | .subReverse x y => Sys2Proof.Machine.execSubReverse x y s
  | .shiftLeft x => Sys2Proof.Machine.execShiftLeft x s
  | .skipIfNotEqualsRegister x y => Sys2Proof.Machine.execSkipIfNotEqualsRegister x y s
  | .loadIndex nnn => Sys2Proof.Machine.execLoadIndex nnn s
  | .jumpOffset nnn => Sys2Proof.Machine.execJumpOffset nnn s
  | .random x nn => Sys2Proof.Machine.execRandom x nn s
  | .draw x y n => Sys2Proof.Machine.execDraw x y n s
  | .skipIfKeyHeld x => Sys2Proof.Machine.execSkipIfKeyHeld x s
  | .skipIfKeyNotHeld x => Sys2Proof.Machine.execSkipIfKeyNotHeld x s
  | .readDelayTimer x => Sys2Proof.Machine.execReadDelayTimer x s
  | .waitForKeyPress x => Sys2Proof.Machine.execWaitForKeyPress x s
  | .setDelayTimer x => Sys2Proof.Machine.execSetDelayTimer x s
  | .setSoundTimer x => Sys2Proof.Machine.execSetSoundTimer x s
  | .addIndex x => Sys2Proof.Machine.execAddIndex x s
  | .loadFontGlyph x => Sys2Proof.Machine.execLoadFontGlyph x s
  | .storeBCD x => Sys2Proof.Machine.execStoreBCD x s
  | .storeRegisters x => Sys2Proof.Machine.execStoreRegisters x s
  | .loadRegisters x => Sys2Proof.Machine.execLoadRegisters x s

end Sys2Proof.Machine
end

