-- ==== Sys2Proof/Machine/Cycle.lean ====
section
/-! DEFINITION. The instruction step of 60_exceptions.md R220, and the four atomic events of the core (00_scope.md R5). -/

namespace Sys2Proof.Machine

/-- One instruction step (60_exceptions.md R220): no step exists while HALTED = 1 (R221); the fetch check (R222), then
decode failure (R226), then the instruction with its own check, in this order (R229). -/
def instrStep (s : State) : Result :=
  if s.halted then .fault (.halted s.fault)
  else if s.fetchable then
    match decode s.fetchWord with
    | none => .next (s.raiseFault .decodeFail s.fetchWord)
    | some i => exec i s
  else .next (s.raiseFault .memRange 0)

/-- The atomic events that change the core's state (00_scope.md R5). -/
inductive Event where
  /-- An instruction step (60_exceptions.md R220). -/
  | step
  /-- A timer tick (60_exceptions.md R236). -/
  | tick
  /-- A host load, which only a reset makes possible and the first step ends (20_memory.md R70, R71). -/
  | load (rom : List Byte)
  /-- Reset (70_reset_and_hazards.md R260). -/
  | reset
deriving DecidableEq, Repr

/-- One event. A tick or a reset happens whether the core is halted or not (60_exceptions.md R238; R231). The first step closes
the host's load port (20_memory.md R70). -/
def perform : Event → State → Result
  | .step, s => instrStep s.closeLoad
  | .tick, s => .next s.tick
  | .load rom, s => s.hostLoad rom
  | .reset, s => .next s.resetCore

/-- Events in the order the scheduler chose (60_exceptions.md R237), stopping at the first that has no next state. -/
def performAll : List Event → State → Result
  | [], s => .next s
  | e :: rest, s =>
    match perform e s with
    | .next t => performAll rest t
    | .fault f => .fault f
    | .refused r => .refused r

end Sys2Proof.Machine
end

