-- ==== Sys2Proof/Machine/Step.lean ====
section
/-! DEFINITION. The host's step: the ticks the scheduler ordered before it (60_exceptions.md R237; log entry 2), then one
instruction step (R220). -/

namespace Sys2Proof.Machine

/-- One step of the machine: any number of ticks, listed in the state or free, then one instruction step
(60_exceptions.md R220, R237). -/
def step (s : State) : Host.Outcome State Fault Refusal := instrStep s.beforeStep

/-- s with an instruction word where the next step fetches it, big-endian (20_memory.md R56; log entry 10). -/
def State.withFetchWord (s : State) (nbits w : Nat) : State :=
  s.readyToFetch.placeWord s.readyToFetch.pc.toNat (tableWord nbits w)

end Sys2Proof.Machine
end

