-- ==== Sys2Proof/Safety.lean ====
section
/-! DEFINITION. The terms statements are made in: what a step leaves unchanged, the invariant of the machine, and when a run has
ended (60_exceptions.md R251). -/

namespace Sys2Proof.Machine

/-! ## What is unchanged -/

/-- The call stack, entries and depth, is as it was (10_state.md R29, R30). -/
def SameStack (s t : State) : Prop := t.stack = s.stack ∧ t.sp = s.sp

/-- The four status registers hold what they held (10_state.md R33). -/
def SameStatus (s t : State) : Prop :=
  t.halted = s.halted ∧ t.fault = s.fault ∧ t.faultPc = s.faultPc ∧ t.faultOp = s.faultOp

/-- No query was issued and no answer used up (60_exceptions.md R224). -/
def NothingAsked (s t : State) : Prop := t.requests = s.requests ∧ t.inputs = s.inputs

/-! ## The invariant -/

/-- The status registers tell one story (10_state.md R33; 60_exceptions.md R225): nothing recorded while HALTED = 0; a cause,
and the pc of the step that faulted, while HALTED = 1. -/
def StatusCoherent (s : State) : Prop :=
  (s.halted = false → s.fault = .none ∧ s.faultPc = 0 ∧ s.faultOp = 0) ∧
  (s.halted = true → s.fault ≠ .none ∧ s.faultPc = s.pc)

/-- Every valid stack entry is an address a call could be fetched from (40_control_transfer.md R111, corner cases). -/
def SavedAddressesFetchable (s : State) : Prop :=
  ∀ k : Fin 16, k.val < s.sp.val → s.stack[k].toNat ≤ 0xFFE

/-- While the host may still load, the core is as reset left it, so that bytes the load does not cover keep their reset value
(20_memory.md R70; 70_reset_and_hazards.md R263). -/
def LoadsOntoReset (s : State) : Prop := s.loadOpen = true → s.resetCore = s

/-- What holds at reset and every step keeps. -/
def Inv (s : State) : Prop := s.mem.Wf ∧ StatusCoherent s ∧ SavedAddressesFetchable s ∧ LoadsOntoReset s

/-! ## Runs -/

/-- A failed run: the core halted with a FAULT code (60_exceptions.md R251 (a)). -/
def State.failedRun (s : State) : Prop := s.halted = true

/-- A successful end: the pc at a word 1nnn whose nnn equals that pc, reached without a fault (60_exceptions.md R251 (b)).
The core itself does not stop there. -/
def State.atSelfJump (s : State) : Prop :=
  s.halted = false ∧ s.fetchable = true ∧ ∃ nnn, decode s.fetchWord = some (.jump nnn) ∧ zextAddr nnn = s.pc

end Sys2Proof.Machine
end

