-- ==== Sys2Proof/Certificates/Slice0/Obligations.lean ====
section
/-! DEFINITION. The statements for the provers: what the numbered rules of the spec say the core does. Tables that a rule
gives (who faults when, the next pc, which registers an instruction writes) stand first, written from the rule and not from
the model's meanings; then the statements. `free answer` in a docstring means that the statement holds whatever it is. The fields
`inputs` and `requests` are the model's form of the answers that are inputs to a step and of the queries a step issues
(60_exceptions.md R240-R244; log entries 3 and 4). -/

open Sys2Proof Sys2Proof.Machine

namespace Sys2Proof.Table

/-- The instruction's own check (60_exceptions.md R223): the code of the fault it raises at a state, if any. -/
def ownFault : Instr → State → Option (BitVec 3)
  | .call _, s => if s.sp.val = 16 then some 2 else none
  | .ret, s => if s.sp.val = 0 then some 3 else none
  | .draw _ _ n, s => if 1 ≤ n ∧ 0xFFF < s.i.toNat + n - 1 then some 4 else none
  | .storeBCD _, s => if 0xFFF < s.i.toNat + 2 then some 4 else none
  | .storeRegisters x, s => if 0xFFF < s.i.toNat + x.val then some 4 else none
  | .loadRegisters x, s => if 0xFFF < s.i.toNat + x.val then some 4 else none
  | _, _ => none

/-- The next pc of an instruction that does not fault (10_state.md R26), as a number. -/
def nextPc : Instr → State → Nat
  | .jump nnn, _ => nnn.toNat
  | .call nnn, _ => nnn.toNat
  | .ret, s => (s.stack[s.sp.val - 1]'(by have := s.sp.isLt; omega)).toNat + 2
  | .jumpOffset nnn, s => nnn.toNat + (s.readV 0).toNat
  | .skipIfEqualsByte x nn, s => s.pc.toNat + if s.readV x = nn then 4 else 2
  | .skipIfNotEqualsByte x nn, s => s.pc.toNat + if s.readV x = nn then 2 else 4
  | .skipIfEqualsRegister x y, s => s.pc.toNat + if s.readV x = s.readV y then 4 else 2
  | .skipIfNotEqualsRegister x y, s => s.pc.toNat + if s.readV x = s.readV y then 2 else 4
  | .skipIfKeyHeld x, s => s.pc.toNat + if s.keyHeldAnswer (s.readV x) then 4 else 2
  | .skipIfKeyNotHeld x, s => s.pc.toNat + if s.keyHeldAnswer (s.readV x) then 2 else 4
  | .waitForKeyPress _, s => s.pc.toNat + if s.keyWaitAnswer = none then 0 else 2
  | _, s => s.pc.toNat + 2

/-- The general registers an instruction may write (10_state.md R21, R22). -/
def writes : Instr → Reg → Prop
  | .loadByte x _, r | .readDelayTimer x, r | .waitForKeyPress x, r | .addByte x _, r | .move x _, r
  | .or x _, r | .and x _, r | .xor x _, r | .random x _, r => r = x
  | .add x _, r | .sub x _, r | .subReverse x _, r | .shiftRight x, r | .shiftLeft x, r => r = x ∨ r = 15
  | .draw _ _ _, r => r = 15
  | .loadRegisters x, r => r.val ≤ x.val
  | _, _ => False

/-- The memory addresses an instruction writes (20_memory.md R53). -/
def stores : Instr → State → Nat → Prop
  | .storeBCD _, s, a => s.i.toNat ≤ a ∧ a ≤ s.i.toNat + 2
  | .storeRegisters x, s, a => s.i.toNat ≤ a ∧ a ≤ s.i.toNat + x.val
  | _, _, _ => False

/-- The query an instruction that does not fault issues (44_devices_timers.md R200; 60_exceptions.md R240-R244). -/
def query : Instr → State → Option Request
  | .clearDisplay, _ => some .clear
  | .draw x y n, s => some (.draw (s.readV x) (s.readV y) (s.mem.readBytes s.i.toNat n))
  | .skipIfKeyHeld x, s => some (.isHeld (s.readV x))
  | .skipIfKeyNotHeld x, s => some (.isHeld (s.readV x))
  | .waitForKeyPress _, _ => some .currentlyHeld
  | .random _ _, _ => some .randomByte
  | _, _ => none

/-- The words that match no row of the opcode map (30_encoding.md R86-R89), by the number of the word. -/
def unrecognized (w : Nat) : Prop :=
  (w / 4096 = 0 ∧ w ≠ 0x00E0 ∧ w ≠ 0x00EE) ∨
  ((w / 4096 = 5 ∨ w / 4096 = 9) ∧ w % 16 ≠ 0) ∨
  (w / 4096 = 8 ∧ 8 ≤ w % 16 ∧ w % 16 ≠ 14) ∨
  (w / 4096 = 14 ∧ w % 256 ≠ 0x9E ∧ w % 256 ≠ 0xA1) ∨
  (w / 4096 = 15 ∧ w % 256 ∉ [0x07, 0x0A, 0x15, 0x18, 0x1E, 0x29, 0x33, 0x55, 0x65])

end Sys2Proof.Table

/-! ## Reset, load and memory -/

/-- 70_reset_and_hazards.md R260, R261: reset puts every piece of core state to its reset value, whatever the machine's
FONT_GLYPHS is, and asks no collaborator anything; the entry point is 0x200; no other event clears HALTED. -/
def Obligations.ResetPutsEveryPieceOfStateToItsValue : Prop :=
  ∀ s : State, ∃ t, perform .reset s = .next t ∧
    (∀ r, t.readV r = 0) ∧ t.i = 0 ∧ t.pc = 0x200 ∧ t.sp = 0 ∧ (∀ k : Fin 16, t.stack[k] = 0) ∧
    t.dt = 0 ∧ t.st = 0 ∧ t.halted = false ∧ t.fault.bits = 0 ∧ t.faultPc = 0 ∧ t.faultOp = 0 ∧
    (∀ k : Fin 80, t.mem.read k.val = s.mem.glyphs[k]) ∧
    (∀ a, 80 ≤ a → a ≤ 0xFFF → t.mem.read a = 0) ∧ t.mem.glyphs = s.mem.glyphs ∧ NothingAsked s t ∧
    (∀ (e : Event) (u : State), s.halted = true → e ≠ .reset → perform e s = .next u → u.halted = true)

/-- The model's State.reset is the state of the reset event for the DEFAULT font table, which the spec marks general
knowledge (43_index_memory.md R184; log entry 5): its 16 glyphs stand at 0x000, 0x005, ..., every other byte of
memory is zero, and the registers are clear. -/
def Obligations.InitialStateHoldsDefaultFont : Prop :=
  State.reset.pc = 0x200 ∧ State.reset.i = 0 ∧ State.reset.sp = 0 ∧ State.reset.halted = false ∧
  (∀ r, State.reset.readV r = 0) ∧
  State.reset.mem.readBytes 0x000 80 = [
      0xF0, 0x90, 0x90, 0x90, 0xF0,  0x20, 0x60, 0x20, 0x20, 0x70,
      0xF0, 0x10, 0xF0, 0x80, 0xF0,  0xF0, 0x10, 0xF0, 0x10, 0xF0,
      0x90, 0x90, 0xF0, 0x10, 0x10,  0xF0, 0x80, 0xF0, 0x10, 0xF0,
      0xF0, 0x80, 0xF0, 0x90, 0xF0,  0xF0, 0x10, 0x20, 0x40, 0x40,
      0xF0, 0x90, 0xF0, 0x90, 0xF0,  0xF0, 0x90, 0xF0, 0x10, 0xF0,
      0xF0, 0x90, 0xF0, 0x90, 0x90,  0xE0, 0x90, 0xE0, 0x90, 0xE0,
      0xF0, 0x80, 0x80, 0x80, 0xF0,  0xE0, 0x90, 0x90, 0x90, 0xE0,
      0xF0, 0x80, 0xF0, 0x80, 0xF0,  0xF0, 0x80, 0xF0, 0x80, 0x80] ∧
  ∀ a, 0x050 ≤ a → a ≤ 0xFFF → State.reset.mem.read a = 0

/-- 20_memory.md section 6 (R70) and 60_exceptions.md R228: where the host may load, a ROM of at most 3584 bytes is copied to 0x200,
0x201, ..., no other byte and no other piece of core state changing, and the load port closes; a longer one is refused, and there
is no state after it. Where the port is closed every load is refused. The port is the model's field `loadOpen` (log entry 11). -/
def Obligations.HostLoadCopiesRomOrRefusesIt : Prop :=
  ∀ (s : State) (rom : List Byte),
    (s.loadOpen = true → rom.length ≤ 3584 → ∃ t, perform (.load rom) s = .next t ∧
      (∀ (k : Nat) (h : k < rom.length), t.mem.read (0x200 + k) = rom[k]) ∧
      (∀ a, (∀ k, k < rom.length → a ≠ 0x200 + k) → t.mem.read a = s.mem.read a) ∧ t = { s with mem := t.mem, loadOpen := false }) ∧
    (s.loadOpen = true → 3584 < rom.length → perform (.load rom) s = .refused .romTooLong) ∧
    (s.loadOpen = false → perform (.load rom) s = .refused .loadClosed)

/-- 20_memory.md section 6 (R70, R71): the load comes after a reset and before the first step, once. A reset opens the load port
and no tick moves it; the host's step leaves it closed; and after a step event or a load no run of events holds a load until the
next reset, so that what changes core state is steps, ticks and reset. The port is the model's field `loadOpen` (log entry 11). -/
def Obligations.HostLoadsOnlyBetweenResetAndFirstStep : Prop :=
  (∀ s : State, ∃ t, perform .reset s = .next t ∧ t.loadOpen = true) ∧
  (∀ s t : State, perform .tick s = .next t → t.loadOpen = s.loadOpen) ∧
  (∀ s t : State, step s = .next t → t.loadOpen = false) ∧
  (∀ (e : Event) (es : List Event) (s t u : State), (e = .step ∨ ∃ rom, e = .load rom) → perform e s = .next t →
    .reset ∉ es → performAll es t = .next u → ∀ rom, .load rom ∉ es)

/-- 20_memory.md R61 (sequential memory) for a block of writes: each byte of the block reads as written, every other byte as
before. -/
def Obligations.BlockWriteReadsBack : Prop :=
  ∀ (m : Memory) (a b : Nat) (ws : List Byte),
    (m.writeBytes a ws).read b = if h : a ≤ b ∧ b < a + ws.length then ws[b - a]'(by omega) else m.read b

/-- The model's canonical form (log entry 8): two memories in it with the same font parameter that read alike are equal. -/
def Obligations.CanonicalMemoriesThatReadAlikeAreEqual : Prop :=
  ∀ m n : Memory, m.Wf → n.Wf → m.glyphs = n.glyphs → (∀ a, m.read a = n.read a) → m = n

/-! ## Encoding -/

/-- 30_encoding.md R81: the five fields and the group are the bits op[11:8], op[7:4], op[3:0], op[7:0], op[11:0], op[15:12] of
any word, recognized or not; the source's example 0xABCD. -/
def Obligations.FieldsAreBitSlices : Prop :=
  (∀ op : Word, (opX op).val = op.toNat / 2 ^ 8 % 2 ^ 4 ∧ (opY op).val = op.toNat / 2 ^ 4 % 2 ^ 4 ∧
    (opN op).toNat = op.toNat % 2 ^ 4 ∧ (opNN op).toNat = op.toNat % 2 ^ 8 ∧ (opNNN op).toNat = op.toNat % 2 ^ 12 ∧
    (opGroup op).toNat = op.toNat / 2 ^ 12) ∧
  opX 0xABCD = 0xB ∧ opY 0xABCD = 0xC ∧ opN 0xABCD = 0xD ∧ opNN 0xABCD = 0xCD ∧ opNNN 0xABCD = 0xBCD

/-- Words written out from the opcode map (30_encoding.md R85) and the vectors of 95_test_vectors.md, one of each family. -/
def Obligations.SpecWordsDecode : Prop :=
  decode 0x00EE = some .ret ∧ decode 0x10EE = some (.jump 0x0EE) ∧ decode 0x4306 = some (.skipIfNotEqualsByte 3 0x06) ∧
  decode 0x9120 = some (.skipIfNotEqualsRegister 1 2) ∧ decode 0x8127 = some (.subReverse 1 2) ∧
  decode 0x8A56 = some (.shiftRight 0xA) ∧ decode 0x8A06 = some (.shiftRight 0xA) ∧ decode 0xC30F = some (.random 3 0x0F) ∧
  decode 0xABCD = some (.loadIndex 0xBCD) ∧ decode 0xF355 = some (.storeRegisters 3) ∧ decode 0xD015 = some (.draw 0 1 5) ∧
  decode 0xE5A1 = some (.skipIfKeyNotHeld 5) ∧ decode 0xF307 = some (.readDelayTimer 3) ∧
  decode 0x01E0 = none ∧ decode 0x5121 = none ∧ decode 0x8128 = none ∧ decode 0xE19F = none ∧ decode 0xF117 = none

/-- 30_encoding.md R82, R90: decoding the word of a well-formed instruction gives it back, every operand at every value. -/
def Obligations.DecodeOfEncodeIsTheInstruction : Prop :=
  ∀ i : Instr, i.wellFormed = true → decode (encode i) = some i

/-- 30_encoding.md sections 2 to 5 and 7 (R82, R88, R93): the other direction. What is decoded is well formed and its word is the
word decoded, but for the ignored y of the two shifts, which assembles as 0. -/
def Obligations.EncodeOfDecodeIsTheWordButForShiftY : Prop :=
  ∀ (op : Word) (i : Instr), decode op = some i → i.wellFormed = true ∧
    (encode i = op ∨ ((i = .shiftRight (opX op) ∨ i = .shiftLeft (opX op)) ∧ encode i = op &&& 0xFF0F))

/-- 30_encoding.md R86-R89: the words that decode to no instruction are exactly those the map leaves out. -/
def Obligations.UnrecognizedWordsAreExactlyTheUnlisted : Prop :=
  ∀ op : Word, decode op = none ↔ Table.unrecognized op.toNat

/-- 30_encoding.md section 5 (R90 and the source's property V9 of 95_test_vectors.md): decoding agrees with the (match, mask) rows
of spec/opcode_table.json in both directions. -/
def Obligations.DecoderAgreesWithOpcodeTable : Prop :=
  (∀ (op : Word) (i : Instr), decode op = some i → op &&& (tableRow i).2 = (tableRow i).1) ∧
  (∀ (op : Word) (i : Instr), op &&& (tableRow i).2 = (tableRow i).1 →
    ∃ j, decode op = some j ∧ tableRow j = tableRow i)

/-! ## The step -/

/-- 20_memory.md R56: at a pc that can be fetched, op[15:8] is the byte at pc and op[7:0] the byte at pc +16 1, at any parity of
the pc. -/
def Obligations.FetchIsBigEndian : Prop :=
  ∀ s : State, s.pc.toNat ≤ 0xFFE →
    s.fetchWord.toNat = 256 * (s.mem.read s.pc.toNat).toNat + (s.mem.read (s.pc + 1).toNat).toNat

/-- 60_exceptions.md section 1 (R220): where the core is not halted and the bytes at a fetchable pc decode to i, a step is exec of
i at the state after the ticks that were ordered before the step (R237); those change DT and ST by counting down, use up the
scheduler's order (one entry of `ticks`, one free value), close the host's load port, and change nothing else, the collaborators'
answers to come included. That the host's step has the ticks in it is the model's choice (log entries 2, 3 and 11). -/
def Obligations.StepRunsTheDecodedInstruction : Prop :=
  ∀ (s : State) (i : Instr), s.halted = false → s.pc.toNat ≤ 0xFFE → decode s.fetchWord = some i →
    step s = exec i s.beforeStep ∧ s.beforeStep.dt.toNat = s.dt.toNat - s.ticksDue ∧
    s.beforeStep.st.toNat = s.st.toNat - s.ticksDue ∧
    s.beforeStep = { s with
      dt := s.beforeStep.dt, st := s.beforeStep.st, loadOpen := false,
      inputs := { s.inputs with ticks := s.inputs.ticks.tail, drawn := s.inputs.drawn + 1 } }

/-- 60_exceptions.md R222: a pc above 0xFFE faults the fetch with MEM_RANGE, FAULT_OP = 0x0000, all else as it was. -/
def Obligations.FetchAboveMemoryFaults : Prop :=
  ∀ s : State, s.halted = false → 0xFFE < s.pc.toNat →
    instrStep s = .next { s with halted := true, fault := .memRange, faultPc := s.pc, faultOp := 0 }

/-- 60_exceptions.md R226, 30_encoding.md R92: an unrecognized word halts the core with DECODE_FAIL and the word in FAULT_OP, and
changes no architectural state. -/
def Obligations.UnrecognizedWordHalts : Prop :=
  ∀ s : State, s.halted = false → s.pc.toNat ≤ 0xFFE → decode s.fetchWord = none →
    instrStep s = .next { s with halted := true, fault := .decodeFail, faultPc := s.pc, faultOp := s.fetchWord }

/-- 60_exceptions.md R221: while HALTED = 1 no step exists, neither alone nor after ticks, and the run is no successful end; ticks
still happen, and the core stays halted. -/
def Obligations.HaltedCoreMakesNoStep : Prop :=
  ∀ s : State, s.halted = true → (∀ t, step s ≠ .next t ∧ perform .step s ≠ .next t) ∧ ¬ s.atSelfJump ∧
    ∃ t, perform .tick s = .next t ∧ t.halted = true ∧ t.dt.toNat = s.dt.toNat - 1 ∧ t.st.toNat = s.st.toNat - 1

/-- 60_exceptions.md sections 1 and 2 (R220, R223, R233): a core that is not halted always makes a step; the machine never refuses
an instruction and never gets stuck on one. That a halted core's step answers the fault `halted` with the cause code is the
model's form of R221 (log entry 1). -/
def Obligations.RunningCoreAlwaysMakesAStep : Prop :=
  (∀ s : State, s.halted = false → ∃ t, step s = .next t) ∧
  (∀ s : State, s.halted = true → step s = .fault (.halted s.fault)) ∧ (∀ (i : Instr) (s : State), ∃ t, exec i s = .next t)

/-- 60_exceptions.md R224, R225: a step that faults records the cause, the pc and the word (0 where the fetch itself faulted)
and changes nothing else at all: no register, no memory, no query, no draw. -/
def Obligations.FaultsArePrecise : Prop :=
  ∀ s t : State, instrStep s = .next t → t.halted = true →
    t.fault ≠ .none ∧
    t = { s with halted := true, fault := t.fault, faultPc := s.pc,
                 faultOp := if s.pc.toNat ≤ 0xFFE then s.fetchWord else 0 }

/-- 60_exceptions.md R223, R229 with the codes of 10_state.md R33: which step faults, with which code in FAULT, and in which
order the checks are made. No other instruction and no other condition faults. -/
def Obligations.StepFaultsExactlyAsTheTableSays : Prop :=
  ∀ s t : State, instrStep s = .next t →
    (if 0xFFE < s.pc.toNat then t.halted = true ∧ t.fault.bits = 4 ∧ t.faultPc = s.pc ∧ t.faultOp = 0
     else match decode s.fetchWord with
       | none => t.halted = true ∧ t.fault.bits = 1 ∧ t.faultPc = s.pc ∧ t.faultOp = s.fetchWord
       | some i => match Table.ownFault i s with
         | some code => t.halted = true ∧ t.fault.bits = code ∧ t.faultPc = s.pc ∧ t.faultOp = s.fetchWord
         | none => SameStatus s t)

/-- 10_state.md R26: the next pc of every instruction, modulo 65536; an unrecognized word and a faulting step leave it
unchanged. -/
def Obligations.NextPcIsAsTheTableSays : Prop :=
  ∀ s t : State, instrStep s = .next t →
    (t.halted = true → t.pc = s.pc) ∧
    (t.halted = false → ∃ i, decode s.fetchWord = some i ∧ t.pc = BitVec.ofNat 16 (Table.nextPc i s))

/-! ## Frames: what no instruction but the named ones changes -/

/-- 20_memory.md section 1 (R53): every byte outside the bytes Fx33 (I to I+2) and Fx55 (I to I+x) store reads as before; every
other instruction leaves all of memory as it was. -/
def Obligations.OnlyTheStoresWriteMemory : Prop :=
  ∀ (i : Instr) (s t : State), exec i s = .next t →
    (∀ a, ¬ Table.stores i s a → t.mem.read a = s.mem.read a) ∧ t.mem.glyphs = s.mem.glyphs

/-- 10_state.md section 1 (the spec's table R22, which it marks as its own inference, with R21): every register outside the row
of the instruction is unchanged. -/
def Obligations.RegistersOutsideTheTableAreUnchanged : Prop :=
  ∀ (i : Instr) (s t : State), exec i s = .next t → ∀ r, ¬ Table.writes i r → t.readV r = s.readV r

/-- 10_state.md R24: I is written only by Annn, Fx1E, Fx29, Fx55 and Fx65. -/
def Obligations.IndexIsWrittenOnlyByItsInstructions : Prop :=
  ∀ (i : Instr) (s t : State), exec i s = .next t →
    (∀ nnn, i ≠ .loadIndex nnn) → (∀ x, i ≠ .addIndex x ∧ i ≠ .loadFontGlyph x ∧ i ≠ .storeRegisters x ∧
      i ≠ .loadRegisters x) → t.i = s.i

/-- 10_state.md R29: no instruction but 2nnn and 00EE changes the call stack; 00EE writes no entry, and 2nnn none but
stack[SP]. -/
def Obligations.StackIsReachedOnlyByCallAndReturn : Prop :=
  ∀ (i : Instr) (s t : State), exec i s = .next t →
    ((∀ nnn, i ≠ .call nnn) → i ≠ .ret → SameStack s t) ∧ (i = .ret → t.stack = s.stack) ∧
    (∀ k : Fin 16, k.val ≠ s.sp.val → t.stack[k] = s.stack[k])

/-- 10_state.md R32: instructions write DT only by Fx15 and ST only by Fx18; none decrements a timer. -/
def Obligations.TimersAreWrittenOnlyByTheirInstructions : Prop :=
  ∀ (i : Instr) (s t : State), exec i s = .next t →
    ((∀ x, i ≠ .setDelayTimer x) → t.dt = s.dt) ∧ ((∀ x, i ≠ .setSoundTimer x) → t.st = s.st)

/-- 10_state.md R33: no instruction writes the status registers; only a fault does. -/
def Obligations.StatusIsWrittenOnlyByAFault : Prop :=
  ∀ (i : Instr) (s t : State), exec i s = .next t → Table.ownFault i s = none → SameStatus s t

/-- 44_devices_timers.md section 1 (R200) and 60_exceptions.md section 5: an instruction issues its one query, where it has one
and does not fault, and no other; a faulting one issues none. -/
def Obligations.EachInstructionIssuesItsOneQuery : Prop :=
  ∀ (i : Instr) (s t : State), exec i s = .next t →
    (Table.ownFault i s = none → t.requests = (Table.query i s).toList ++ s.requests) ∧
    (Table.ownFault i s ≠ none → NothingAsked s t) ∧
    (Table.ownFault i s = none → (Table.query i s = none ∨ i = .clearDisplay) → t.inputs = s.inputs)

/-! ## The invariant -/

/-- The model's invariant holds at State.reset: canonical memory (log entry 8), coherent status registers, fetchable saved
addresses, and a core as reset left it while the host may load (log entry 11). -/
def Obligations.InvariantHoldsAtReset : Prop := Inv State.reset

/-- Every step keeps the invariant, from every state that has it: the status registers of 10_state.md R33; that no saved address
exceeds 0xFFE, the spec's own inference in 40_control_transfer.md R111; canonical memory, the model's form (log entry 8); loads
only onto the reset state (20_memory.md R70, by the model's field `loadOpen`, log entry 11). -/
def Obligations.EveryStepKeepsTheInvariant : Prop :=
  ∀ s t : State, Inv s → step s = .next t → Inv t

/-- Every order of steps, ticks, loads and resets that runs keeps the invariant (00_scope.md R5): the status registers are reset and
taken as 10_state.md R33 and 70_reset_and_hazards.md R260 say; that no saved address exceeds 0xFFE is the spec's own inference in
40_control_transfer.md R111; canonical memory is the model's form (log entry 8); that a load out of order has no next state is
20_memory.md R70 and R71 by the model's field `loadOpen` (log entry 11). -/
def Obligations.EveryRunOfEventsKeepsTheInvariant : Prop :=
  ∀ (es : List Event) (s t : State), Inv s → performAll es s = .next t → Inv t

/-! ## Ticks -/

/-- 60_exceptions.md R236, R238: one tick takes one from each timer that is not zero and changes nothing else, in any state,
halted or not. -/
def Obligations.TickDecrementsNonzeroTimers : Prop :=
  ∀ s : State, ∃ t, perform .tick s = .next t ∧
    t.dt.toNat = (if 0 < s.dt.toNat then s.dt.toNat - 1 else 0) ∧
    t.st.toNat = (if 0 < s.st.toNat then s.st.toNat - 1 else 0) ∧ t = { s with dt := t.dt, st := t.st }

/-- 60_exceptions.md section 4 (R236, R237): the host's step is the due number of tick events and then an instruction-step event,
from the state where the scheduler's order has been used up. -/
def Obligations.StepIsTickEventsThenAStepEvent : Prop :=
  ∀ s : State, step s = performAll (List.replicate s.ticksDue .tick ++ [.step]) s.ticksTaken

/-- 60_exceptions.md section 4 (R236): after n ticks a timer is n lower, stopping at zero. -/
def Obligations.ManyTicksStopAtZero : Prop :=
  ∀ (n : Nat) (s : State), ∃ t, performAll (List.replicate n .tick) s = .next t ∧
    t.dt.toNat = s.dt.toNat - n ∧ t.st.toNat = s.st.toNat - n ∧ t = { s with dt := t.dt, st := t.st }

/-- 70_reset_and_hazards.md section 3 (R265, the spec's own inference): a step of Fx07 can read any value from DT down to zero,
since any number of ticks may come before it. -/
def Obligations.DelayTimerReadMayBeAnyLowerValue : Prop :=
  ∀ (s : State) (x : Reg) (d : Nat), s.halted = false → s.pc.toNat ≤ 0xFFE →
    decode s.fetchWord = some (.readDelayTimer x) → d ≤ s.dt.toNat →
    ∃ n t, step { s with inputs := { s.inputs with ticks := n :: s.inputs.ticks } } = .next t ∧ (t.readV x).toNat = d

/-! ## Control transfer -/

/-- 40_control_transfer.md R112, R114: the jumps; nothing but the pc changes, and Bnnn's sum is not masked to 12 bits. -/
def Obligations.JumpsSetThePc : Prop :=
  ∀ (nnn : Addr12) (s : State),
    decode (formatNNN 0x1 nnn) = some (.jump nnn) ∧ decode (formatNNN 0xB nnn) = some (.jumpOffset nnn) ∧
    exec (.jump nnn) s = .next { s with pc := BitVec.ofNat 16 nnn.toNat } ∧
    exec (.jumpOffset nnn) s = .next { s with pc := BitVec.ofNat 16 (nnn.toNat + (s.readV 0).toNat) }

/-- 40_control_transfer.md R113, 10_state.md R31: a call pushes the address of the call itself and jumps; at SP = 16 it faults
STACK_OVERFLOW and writes nothing else. -/
def Obligations.CallPushesItsOwnAddress : Prop :=
  ∀ (nnn : Addr12) (s : State), decode (formatNNN 0x2 nnn) = some (.call nnn) ∧
    (∀ h : s.sp.val < 16, exec (.call nnn) s =
      .next { s with stack := s.stack.set s.sp.val s.pc, sp := ⟨s.sp.val + 1, by omega⟩,
                     pc := BitVec.ofNat 16 nnn.toNat }) ∧
    (s.sp.val = 16 → exec (.call nnn) s =
      .next { s with halted := true, fault := .stackOverflow, faultPc := s.pc, faultOp := formatNNN 0x2 nnn })

/-- 40_control_transfer.md R111, 10_state.md R31: a return pops the saved address and resumes two bytes after it, the entry
staying stale; at SP = 0 it faults STACK_UNDERFLOW and writes nothing else. -/
def Obligations.ReturnResumesAfterTheCall : Prop :=
  ∀ s : State, decode 0x00EE = some .ret ∧
    (∀ h : 0 < s.sp.val, exec .ret s =
      .next { s with sp := ⟨s.sp.val - 1, by omega⟩, pc := s.stack[s.sp.val - 1] + 2 }) ∧
    (s.sp.val = 0 → exec .ret s =
      .next { s with halted := true, fault := .stackUnderflow, faultPc := s.pc, faultOp := 0x00EE })

/-- 40_control_transfer.md R115: a step of 2nnn and then a step of the 00EE at nnn come back to the instruction after the call
with the stack depth and the entries below it as before, however many ticks come between. -/
def Obligations.CallThenReturnComesBack : Prop :=
  ∀ (s : State) (nnn : Addr12), s.halted = false → s.pc.toNat ≤ 0xFFE → decode s.fetchWord = some (.call nnn) →
    s.sp.val < 16 → nnn.toNat ≤ 0xFFE →
    wordOfBytes (s.mem.read nnn.toNat) (s.mem.read (nnn.toNat + 1)) = 0x00EE →
    ∃ t u, step s = .next t ∧ step t = .next u ∧ u.pc = s.pc + 2 ∧ u.sp = s.sp ∧
      ∀ k : Fin 16, k.val < s.sp.val → u.stack[k] = s.stack[k]

/-- 60_exceptions.md section 7 (R251): at a jump to itself the core does not stop; a step is made, and the next state is again at
the jump to itself, with nothing but the timers, the scheduler's order and the load port changed. -/
def Obligations.SelfJumpRepeatsForever : Prop :=
  ∀ s : State, s.atSelfJump → ∃ t, step s = .next t ∧ t.atSelfJump ∧
    t = { s with
      dt := t.dt, st := t.st, loadOpen := false,
      inputs := { s.inputs with ticks := s.inputs.ticks.tail, drawn := s.inputs.drawn + 1 } }

/-! ## Skips -/

/-- 41_skips.md R131, R132, R133, R134: the pc moves by 4 where the condition holds and by 2 otherwise; nothing else changes. -/
def Obligations.RegisterSkipsMoveOnlyThePc : Prop :=
  ∀ (x y : Reg) (nn : Byte) (s : State),
    decode (formatXNN 0x3 x nn) = some (.skipIfEqualsByte x nn) ∧
    decode (formatXNN 0x4 x nn) = some (.skipIfNotEqualsByte x nn) ∧
    decode (formatXYN 0x5 x y 0) = some (.skipIfEqualsRegister x y) ∧
    decode (formatXYN 0x9 x y 0) = some (.skipIfNotEqualsRegister x y) ∧
    exec (.skipIfEqualsByte x nn) s =
      .next { s with pc := BitVec.ofNat 16 (s.pc.toNat + if (s.readV x).toNat = nn.toNat then 4 else 2) } ∧
    exec (.skipIfNotEqualsByte x nn) s =
      .next { s with pc := BitVec.ofNat 16 (s.pc.toNat + if (s.readV x).toNat = nn.toNat then 2 else 4) } ∧
    exec (.skipIfEqualsRegister x y) s =
      .next { s with pc := BitVec.ofNat 16 (s.pc.toNat + if (s.readV x).toNat = (s.readV y).toNat then 4 else 2) } ∧
    exec (.skipIfNotEqualsRegister x y) s =
      .next { s with pc := BitVec.ofNat 16 (s.pc.toNat + if (s.readV x).toNat = (s.readV y).toNat then 2 else 4) }

/-- 41_skips.md section 2 (R135, R136): one query with the full byte of Vx; the pc moves by 4 or 2 by the free answer; no core
state but the pc changes. That the answer is the first of the listed ones, where one is listed, that this list alone and one free
value are used up, and that the query is logged, is the model's choice (log entries 3 and 4). Each instruction has its own
answer. -/
def Obligations.KeySkipsFollowTheKeyboard : Prop :=
  ∀ (x : Reg) (s : State),
    decode (formatXNN 0xE x 0x9E) = some (.skipIfKeyHeld x) ∧ decode (formatXNN 0xE x 0xA1) = some (.skipIfKeyNotHeld x) ∧
    (∃ held : Bool, (∀ b rest, s.inputs.keysHeld = b :: rest → held = b) ∧
      exec (.skipIfKeyHeld x) s = .next { s with
        pc := s.pc + (if held then 4 else 2), requests := .isHeld (s.readV x) :: s.requests,
        inputs := { s.inputs with keysHeld := s.inputs.keysHeld.tail, drawn := s.inputs.drawn + 1 } }) ∧
    (∃ held : Bool, (∀ b rest, s.inputs.keysHeld = b :: rest → held = b) ∧
      exec (.skipIfKeyNotHeld x) s = .next { s with
        pc := s.pc + (if held then 2 else 4), requests := .isHeld (s.readV x) :: s.requests,
        inputs := { s.inputs with keysHeld := s.inputs.keysHeld.tail, drawn := s.inputs.drawn + 1 } })

/-! ## Loads and the ALU -/

/-- 42_alu.md R153, R154, R155: load byte, add byte (modulo 256, no flag) and move write Vx and advance the pc; nothing else
changes. -/
def Obligations.LoadsMovesAndByteAddWriteVx : Prop :=
  ∀ (x y : Reg) (nn : Byte) (s : State),
    decode (formatXNN 0x6 x nn) = some (.loadByte x nn) ∧ decode (formatXNN 0x7 x nn) = some (.addByte x nn) ∧
    decode (formatXYN 0x8 x y 0x0) = some (.move x y) ∧
    exec (.loadByte x nn) s = .next { s with v := s.v.set x nn, pc := s.pc + 2 } ∧
    exec (.addByte x nn) s = .next { s with
      v := s.v.set x (BitVec.ofNat 8 (((s.readV x).toNat + nn.toNat) % 256)), pc := s.pc + 2 } ∧
    exec (.move x y) s = .next { s with v := s.v.set x (s.readV y), pc := s.pc + 2 }

/-- 42_alu.md R156, R157, R158: the bitwise operations, bit by bit; no flag. -/
def Obligations.LogicOperationsAreBitwise : Prop :=
  ∀ (x y : Reg) (s : State),
    decode (formatXYN 0x8 x y 0x1) = some (.or x y) ∧ decode (formatXYN 0x8 x y 0x2) = some (.and x y) ∧
    decode (formatXYN 0x8 x y 0x3) = some (.xor x y) ∧
    (∃ r : Byte, (∀ k, r.getLsbD k = ((s.readV x).getLsbD k || (s.readV y).getLsbD k)) ∧
      exec (.or x y) s = .next { s with v := s.v.set x r, pc := s.pc + 2 }) ∧
    (∃ r : Byte, (∀ k, r.getLsbD k = ((s.readV x).getLsbD k && (s.readV y).getLsbD k)) ∧
      exec (.and x y) s = .next { s with v := s.v.set x r, pc := s.pc + 2 }) ∧
    (∃ r : Byte, (∀ k, r.getLsbD k = ((s.readV x).getLsbD k ^^ (s.readV y).getLsbD k)) ∧
      exec (.xor x y) s = .next { s with v := s.v.set x r, pc := s.pc + 2 })

/-- 42_alu.md R159 with R150: the sum modulo 256 to Vx, then the carry to VF, so that VF ends as the flag where x = 0xF. -/
def Obligations.AddWritesSumThenCarry : Prop :=
  ∀ (x y : Reg) (s : State), decode (formatXYN 0x8 x y 0x4) = some (.add x y) ∧
    ∃ r f : Byte, r.toNat = ((s.readV x).toNat + (s.readV y).toNat) % 256 ∧
      f.toNat = (if 255 < (s.readV x).toNat + (s.readV y).toNat then 1 else 0) ∧
      exec (.add x y) s = .next { s with v := (s.v.set x r).set 15 f, pc := s.pc + 2 }

/-- 42_alu.md R160, R162: the two subtractions modulo 256, then NOT borrow of the latched operands to VF. -/
def Obligations.SubtractionsWriteDifferenceThenNotBorrow : Prop :=
  ∀ (x y : Reg) (s : State),
    decode (formatXYN 0x8 x y 0x5) = some (.sub x y) ∧ decode (formatXYN 0x8 x y 0x7) = some (.subReverse x y) ∧
    (∃ r f : Byte, r.toNat = ((s.readV x).toNat + 256 - (s.readV y).toNat) % 256 ∧
      f.toNat = (if (s.readV y).toNat ≤ (s.readV x).toNat then 1 else 0) ∧
      exec (.sub x y) s = .next { s with v := (s.v.set x r).set 15 f, pc := s.pc + 2 }) ∧
    (∃ r f : Byte, r.toNat = ((s.readV y).toNat + 256 - (s.readV x).toNat) % 256 ∧
      f.toNat = (if (s.readV x).toNat ≤ (s.readV y).toNat then 1 else 0) ∧
      exec (.subReverse x y) s = .next { s with v := (s.v.set x r).set 15 f, pc := s.pc + 2 })

/-- 42_alu.md R161, R163 (and 30_encoding.md R88: any y): the one-bit shifts, then the bit shifted out to VF. -/
def Obligations.ShiftsWriteResultThenBitShiftedOut : Prop :=
  ∀ (x y : Reg) (s : State),
    decode (formatXYN 0x8 x y 0x6) = some (.shiftRight x) ∧ decode (formatXYN 0x8 x y 0xE) = some (.shiftLeft x) ∧
    (∃ r f : Byte, r.toNat = (s.readV x).toNat / 2 ∧ f.toNat = (s.readV x).toNat % 2 ∧
      exec (.shiftRight x) s = .next { s with v := (s.v.set x r).set 15 f, pc := s.pc + 2 }) ∧
    (∃ r f : Byte, r.toNat = 2 * (s.readV x).toNat % 256 ∧ f.toNat = (s.readV x).toNat / 128 ∧
      exec (.shiftLeft x) s = .next { s with v := (s.v.set x r).set 15 f, pc := s.pc + 2 })

/-- 42_alu.md section 2 (R164): Vx gets nn AND a free byte, and no flag is written. The draw is fresh: it is used up by this one
execution. That it is the first of the listed draws, where one is listed, that this list alone and one free value are used up,
and that the draw is logged, is the model's choice (log entries 3 and 4). -/
def Obligations.RandomWritesAMaskedDraw : Prop :=
  ∀ (x : Reg) (nn : Byte) (s : State), decode (formatXNN 0xC x nn) = some (.random x nn) ∧
    ∃ r : Byte, (∀ b rest, s.inputs.randoms = b :: rest → r = b) ∧
      exec (.random x nn) s = .next { s with
        v := s.v.set x (r &&& nn), pc := s.pc + 2, requests := .randomByte :: s.requests,
        inputs := { s.inputs with randoms := s.inputs.randoms.tail, drawn := s.inputs.drawn + 1 } }

/-! ## The index register and memory transfers -/

/-- 43_index_memory.md R181, R182, R183: I gets nnn, I + Vx modulo 65536, or the glyph address 5 × Vx unmasked; no flag, no
memory access, nothing else changes. -/
def Obligations.IndexInstructionsComputeI : Prop :=
  ∀ (x : Reg) (nnn : Addr12) (s : State),
    decode (formatNNN 0xA nnn) = some (.loadIndex nnn) ∧ decode (formatXNN 0xF x 0x1E) = some (.addIndex x) ∧
    decode (formatXNN 0xF x 0x29) = some (.loadFontGlyph x) ∧
    exec (.loadIndex nnn) s = .next { s with i := BitVec.ofNat 16 nnn.toNat, pc := s.pc + 2 } ∧
    exec (.addIndex x) s =
      .next { s with i := BitVec.ofNat 16 ((s.i.toNat + (s.readV x).toNat) % 65536), pc := s.pc + 2 } ∧
    exec (.loadFontGlyph x) s = .next { s with i := BitVec.ofNat 16 (5 * (s.readV x).toNat), pc := s.pc + 2 }

/-- 43_index_memory.md R185: hundreds, tens and units to I, I+1, I+2, where I + 2 is in memory; every other byte, and all else
but the pc, unchanged; out of range MEM_RANGE and nothing written. -/
def Obligations.BcdStoresThreeDigits : Prop :=
  ∀ (x : Reg) (s : State), decode (formatXNN 0xF x 0x33) = some (.storeBCD x) ∧
    (s.i.toNat + 2 ≤ 0xFFF → ∃ t, exec (.storeBCD x) s = .next t ∧
      (t.mem.read s.i.toNat).toNat = (s.readV x).toNat / 100 ∧
      (t.mem.read (s.i.toNat + 1)).toNat = (s.readV x).toNat / 10 % 10 ∧
      (t.mem.read (s.i.toNat + 2)).toNat = (s.readV x).toNat % 10 ∧
      (∀ a, a < s.i.toNat ∨ s.i.toNat + 2 < a → t.mem.read a = s.mem.read a) ∧
      t = { s with mem := t.mem, pc := s.pc + 2 }) ∧
    (0xFFF < s.i.toNat + 2 → exec (.storeBCD x) s =
      .next { s with halted := true, fault := .memRange, faultPc := s.pc, faultOp := formatXNN 0xF x 0x33 })

/-- 43_index_memory.md R186: V0 ... Vx to I ... I+x and I advanced by x + 1 modulo 65536, where I + x is in memory; every other
byte, and all else but the pc, unchanged; out of range MEM_RANGE and nothing written. -/
def Obligations.StoreRegistersStoresTheBlock : Prop :=
  ∀ (x : Reg) (s : State), decode (formatXNN 0xF x 0x55) = some (.storeRegisters x) ∧
    (s.i.toNat + x.val ≤ 0xFFF → ∃ t, exec (.storeRegisters x) s = .next t ∧
      (∀ r : Reg, r.val ≤ x.val → t.mem.read (s.i.toNat + r.val) = s.readV r) ∧
      (∀ a, a < s.i.toNat ∨ s.i.toNat + x.val < a → t.mem.read a = s.mem.read a) ∧
      t = { s with mem := t.mem, i := BitVec.ofNat 16 (s.i.toNat + x.val + 1), pc := s.pc + 2 }) ∧
    (0xFFF < s.i.toNat + x.val → exec (.storeRegisters x) s =
      .next { s with halted := true, fault := .memRange, faultPc := s.pc, faultOp := formatXNN 0xF x 0x55 })

/-- 43_index_memory.md R187: V0 ... Vx from I ... I+x and I advanced by x + 1, where I + x is in memory; registers above x, and
all else but the pc, unchanged; out of range MEM_RANGE and nothing written. -/
def Obligations.LoadRegistersLoadsTheBlock : Prop :=
  ∀ (x : Reg) (s : State), decode (formatXNN 0xF x 0x65) = some (.loadRegisters x) ∧
    (s.i.toNat + x.val ≤ 0xFFF → ∃ t, exec (.loadRegisters x) s = .next t ∧
      (∀ r : Reg, t.readV r = if r.val ≤ x.val then s.mem.read (s.i.toNat + r.val) else s.readV r) ∧
      t = { s with v := t.v, i := BitVec.ofNat 16 (s.i.toNat + x.val + 1), pc := s.pc + 2 }) ∧
    (0xFFF < s.i.toNat + x.val → exec (.loadRegisters x) s =
      .next { s with halted := true, fault := .memRange, faultPc := s.pc, faultOp := formatXNN 0xF x 0x65 })

/-- 43_index_memory.md section 2 (R186, R187): what Fx55 stored, Fx65 with the same I loads back, whatever the registers hold in
between. -/
def Obligations.LoadRegistersUndoesStoreRegisters : Prop :=
  ∀ (x : Reg) (s t u : State), s.i.toNat + x.val ≤ 0xFFF → exec (.storeRegisters x) s = .next t →
    u.mem = t.mem → u.i = s.i → ∃ w, exec (.loadRegisters x) u = .next w ∧
      (∀ r : Reg, r.val ≤ x.val → w.readV r = s.readV r) ∧ (∀ r : Reg, x.val < r.val → w.readV r = u.readV r)

/-- 20_memory.md section 5 (R64): the fetch sees stored bytes at once: after Fx55 the word fetched at I + k is Vk and the register
after it, at any state with that memory. -/
def Obligations.FetchSeesStoredBytes : Prop :=
  ∀ (x : Reg) (s t u : State) (k : Nat) (h : k + 1 ≤ x.val), s.i.toNat + x.val ≤ 0xFFF →
    exec (.storeRegisters x) s = .next t → u.mem = t.mem → u.pc.toNat = s.i.toNat + k →
    u.fetchWord = wordOfBytes (s.v[k]'(by omega)) (s.v[k + 1]'(by omega))

/-! ## Display, keyboard and timers -/

/-- 44_devices_timers.md R201: the clear request is issued and the pc advances; nothing else changes. -/
def Obligations.ClearDisplayIssuesClear : Prop :=
  ∀ s : State, decode 0x00E0 = some .clearDisplay ∧
    exec .clearDisplay s = .next { s with pc := s.pc + 2, requests := .clear :: s.requests }

/-- 44_devices_timers.md section 2 (R202): in range, or with n = 0 whatever I is, one draw of the n bytes at I at the latched
coordinates, VF the Display's free answer as 1 or 0, I unchanged; out of range MEM_RANGE, no draw, VF unchanged. That the answer
is the first of the listed ones, where one is listed, that this list alone and one free value are used up, and that the draw is
logged, is the model's choice (log entries 3 and 4); so is the free answer at n = 0, where R202 infers VF = 0 from the Display's
contract (log entry 12): with the answer false listed, VF is 0. -/
def Obligations.DrawReadsRowsAndWritesCollision : Prop :=
  ∀ (x y : Reg) (n : Nat) (s : State), n < 16 →
    decode (formatXYN 0xD x y (BitVec.ofNat 4 n)) = some (.draw x y n) ∧
    ((n = 0 ∨ s.i.toNat + n - 1 ≤ 0xFFF) → ∃ (rows : List Byte) (hit : Bool),
      rows.length = n ∧ (∀ (k : Nat) (h : k < rows.length), rows[k] = s.mem.read (s.i.toNat + k)) ∧
      (∀ b rest, s.inputs.collisions = b :: rest → hit = b) ∧
      exec (.draw x y n) s = .next { s with
        v := s.v.set 15 (if hit then 1 else 0), pc := s.pc + 2,
        requests := .draw (s.readV x) (s.readV y) rows :: s.requests,
        inputs := { s.inputs with collisions := s.inputs.collisions.tail, drawn := s.inputs.drawn + 1 } }) ∧
    (1 ≤ n → 0xFFF < s.i.toNat + n - 1 → exec (.draw x y n) s =
      .next { s with halted := true, fault := .memRange, faultPc := s.pc,
                     faultOp := formatXYN 0xD x y (BitVec.ofNat 4 n) })

/-- 44_devices_timers.md R203, R205, R206: the timer transfers; nothing else changes. -/
def Obligations.TimerInstructionsMoveATimer : Prop :=
  ∀ (x : Reg) (s : State),
    decode (formatXNN 0xF x 0x07) = some (.readDelayTimer x) ∧ decode (formatXNN 0xF x 0x15) = some (.setDelayTimer x) ∧
    decode (formatXNN 0xF x 0x18) = some (.setSoundTimer x) ∧
    exec (.readDelayTimer x) s = .next { s with v := s.v.set x s.dt, pc := s.pc + 2 } ∧
    exec (.setDelayTimer x) s = .next { s with dt := s.readV x, pc := s.pc + 2 } ∧
    exec (.setSoundTimer x) s = .next { s with st := s.readV x, pc := s.pc + 2 }

/-- 44_devices_timers.md section 2 (R204): one query; with a key answered (free) its number to Vx, unmodified, and the pc
advances; with none the whole core stays as it is. That the answer is the first of the listed ones, where one is listed, that this
list alone and one free value are used up, and that the query is logged, is the model's choice (log entries 3 and 4). -/
def Obligations.KeyWaitStallsOrStoresTheKey : Prop :=
  ∀ (x : Reg) (s : State), decode (formatXNN 0xF x 0x0A) = some (.waitForKeyPress x) ∧
    ∃ (key : Option Byte) (asked : State), (∀ b rest, s.inputs.keyWaits = b :: rest → key = b) ∧
      asked = { s with
        requests := .currentlyHeld :: s.requests,
        inputs := { s.inputs with keyWaits := s.inputs.keyWaits.tail, drawn := s.inputs.drawn + 1 } } ∧
      exec (.waitForKeyPress x) s = .next (match key with
        | none => asked
        | some k => { asked with v := s.v.set x k, pc := s.pc + 2 })

/-- 70_reset_and_hazards.md section 3 (R266): the wait can last any number of steps: with no key for n polls, n steps leave the
registers, I, the pc, the stack, memory and the status as they were; each makes one query. The log and the lists used up are the
model's (log entries 2, 3, 4 and 11). -/
def Obligations.KeyWaitMayLastAnyNumberOfSteps : Prop :=
  ∀ (n : Nat) (s : State) (x : Reg), s.halted = false → s.pc.toNat ≤ 0xFFE →
    decode s.fetchWord = some (.waitForKeyPress x) → s.inputs.keyWaits = List.replicate n none →
    ∃ t, Host.Core.run Sys2Proof.core n s = .next t ∧
      t = { s with
        dt := t.dt, st := t.st, requests := List.replicate n .currentlyHeld ++ s.requests,
        inputs := { s.inputs with ticks := s.inputs.ticks.drop n, keyWaits := [], drawn := s.inputs.drawn + 2 * n },
        loadOpen := s.loadOpen && decide (n = 0) }

/-! ## The host's placing of a word -/

/-- The model's withFetchWord (log entry 10): from any state, the next step runs exactly the instruction placed. -/
def Obligations.PlacedWordIsRunByTheNextStep : Prop :=
  ∀ (s : State) (i : Instr), i.wellFormed = true →
    step (s.withFetchWord 16 (encode i).toNat) = exec i (s.withFetchWord 16 (encode i).toNat).beforeStep
end

