-- ==== Sys2Proof/Laws/Decode.lean ====
section
/-! SUPPORT. The fields of a word as numbers, and that the fields of a word built by a format are the fields it was built
from (30_encoding.md R81, R82). -/

namespace Sys2Proof

/-! ## The fields of a word as numbers -/

theorem toNat_opGroup (op : Word) : (opGroup op).toNat = op.toNat / 4096 := by
  simp only [opGroup, BitVec.extractLsb'_toNat, Nat.shiftRight_eq_div_pow]
  have := op.isLt; omega

theorem val_opX (op : Word) : (opX op).val = op.toNat / 256 % 16 := by
  show (op.extractLsb' 8 4).toNat = _
  simp [Nat.shiftRight_eq_div_pow]

theorem val_opY (op : Word) : (opY op).val = op.toNat / 16 % 16 := by
  show (op.extractLsb' 4 4).toNat = _
  simp [Nat.shiftRight_eq_div_pow]

theorem toNat_opN (op : Word) : (opN op).toNat = op.toNat % 16 := by
  simp [opN]

theorem toNat_opNN (op : Word) : (opNN op).toNat = op.toNat % 256 := by
  simp [opNN]

theorem toNat_opNNN (op : Word) : (opNNN op).toNat = op.toNat % 4096 := by
  simp [opNNN]

/-! ## The words of the formats as numbers -/

theorem toNat_append_low {n m : Nat} (a : BitVec n) (b : BitVec m) : (a ++ b).toNat = a.toNat * 2 ^ m + b.toNat := by
  rw [BitVec.toNat_append, Nat.shiftLeft_eq, Nat.mul_comm, ← Nat.two_pow_add_eq_or_of_lt b.isLt]

theorem toNat_formatNNN (g : BitVec 4) (nnn : Addr12) : (formatNNN g nnn).toNat = g.toNat * 4096 + nnn.toNat :=
  toNat_append_low g nnn

theorem toNat_formatXNN (g : BitVec 4) (x : Reg) (nn : Byte) :
    (formatXNN g x nn).toNat = g.toNat * 4096 + x.val * 256 + nn.toNat := by
  have hx : (regBits x).toNat = x.val := rfl
  refine (toNat_append_low (g ++ regBits x) nn).trans ?_
  rw [toNat_append_low g (regBits x), hx]; omega

theorem toNat_formatXYN (g : BitVec 4) (x y : Reg) (n : BitVec 4) :
    (formatXYN g x y n).toNat = g.toNat * 4096 + x.val * 256 + y.val * 16 + n.toNat := by
  have hx : (regBits x).toNat = x.val := rfl
  have hy : (regBits y).toNat = y.val := rfl
  refine (toNat_append_low (g ++ regBits x ++ regBits y) n).trans ?_
  rw [toNat_append_low (g ++ regBits x) (regBits y), toNat_append_low g (regBits x), hx, hy]; omega

/-! ## The fields of a format's word -/

section
variable (g : BitVec 4) (x y : Reg) (nnn : Addr12) (nn : Byte) (n : BitVec 4)

@[simp] theorem opGroup_formatNNN : opGroup (formatNNN g nnn) = g := by
  apply BitVec.eq_of_toNat_eq; rw [toNat_opGroup, toNat_formatNNN]; omega

@[simp] theorem opNNN_formatNNN : opNNN (formatNNN g nnn) = nnn := by
  apply BitVec.eq_of_toNat_eq; rw [toNat_opNNN, toNat_formatNNN]; omega

@[simp] theorem opGroup_formatXNN : opGroup (formatXNN g x nn) = g := by
  apply BitVec.eq_of_toNat_eq; rw [toNat_opGroup, toNat_formatXNN]; omega

@[simp] theorem opX_formatXNN : opX (formatXNN g x nn) = x := by
  apply Fin.ext; rw [val_opX, toNat_formatXNN]; omega

@[simp] theorem opNN_formatXNN : opNN (formatXNN g x nn) = nn := by
  apply BitVec.eq_of_toNat_eq; rw [toNat_opNN, toNat_formatXNN]; omega

@[simp] theorem opGroup_formatXYN : opGroup (formatXYN g x y n) = g := by
  apply BitVec.eq_of_toNat_eq; rw [toNat_opGroup, toNat_formatXYN]; omega

@[simp] theorem opX_formatXYN : opX (formatXYN g x y n) = x := by
  apply Fin.ext; rw [val_opX, toNat_formatXYN]; omega

@[simp] theorem opY_formatXYN : opY (formatXYN g x y n) = y := by
  apply Fin.ext; rw [val_opY, toNat_formatXYN]; omega

@[simp] theorem opN_formatXYN : opN (formatXYN g x y n) = n := by
  apply BitVec.eq_of_toNat_eq; rw [toNat_opN, toNat_formatXYN]; omega

end

/-! ## Bytes and words (20_memory.md R56) -/

theorem toNat_wordOfBytes (hi lo : Byte) : (wordOfBytes hi lo).toNat = hi.toNat * 256 + lo.toNat :=
  toNat_append_low hi lo

@[simp] theorem wordOfBytes_bytesOfWord (op : Word) : wordOfBytes (bytesOfWord op).1 (bytesOfWord op).2 = op := by
  apply BitVec.eq_of_toNat_eq
  have := op.isLt
  rw [toNat_wordOfBytes]
  simp only [bytesOfWord, BitVec.extractLsb'_toNat, Nat.shiftRight_eq_div_pow]
  omega

@[simp] theorem decodeTableWord_eq (nbits w : Nat) : decodeTableWord nbits w = decode (tableWord nbits w) := by
  simp only [decodeTableWord, decodeBytes, wordOfBytes_bytesOfWord]
  cases decode (tableWord nbits w) <;> rfl

end Sys2Proof
end

