-- ==== Sys2Proof/Laws/Memory.lean ====
section
/-! SUPPORT. What the memory operations do (20_memory.md R55), and that each keeps the canonical form. -/

namespace Sys2Proof.Machine

@[simp] theorem Memory.write_glyphs (m : Memory) (a : Nat) (w : Byte) : (m.write a w).glyphs = m.glyphs := by
  unfold Memory.write; split <;> rfl

@[simp] theorem Memory.writeBytes_glyphs (m : Memory) (a : Nat) (ws : List Byte) :
    (m.writeBytes a ws).glyphs = m.glyphs := by
  induction ws generalizing m a with
  | nil => rfl
  | cons w rest ih => simp [Memory.writeBytes, ih]

theorem Memory.unlisted_congr {m n : Memory} (h : n.glyphs = m.glyphs) (a : Nat) : n.unlisted a = m.unlisted a := by
  simp [Memory.unlisted, h]

/-! ## The list -/

theorem lookupCell_putCell (a b : Nat) (w : Byte) (cs : List Host.Cell) :
    lookupCell b (putCell a w cs) = if a = b then some w else lookupCell b cs := by
  induction cs with
  | nil => rfl
  | cons c rest ih =>
    obtain ⟨k, u⟩ := c
    simp only [putCell]
    split
    · simp [lookupCell]
    · split
      · simp only [lookupCell]; split <;> simp_all
      · simp only [lookupCell, ih]; split <;> split <;> simp_all

theorem lookupCell_dropCell (a b : Nat) (cs : List Host.Cell) :
    lookupCell b (dropCell a cs) = if a = b then none else lookupCell b cs := by
  induction cs with
  | nil => simp [dropCell, lookupCell]
  | cons c rest ih =>
    obtain ⟨k, u⟩ := c
    simp only [dropCell]
    split
    · simp only [lookupCell, ih]; split <;> simp_all
    · simp only [lookupCell, ih]; split <;> split <;> simp_all

theorem mem_putCell {a : Nat} {w : Byte} {cs : List Host.Cell} {c : Host.Cell} (h : c ∈ putCell a w cs) :
    c = (a, w) ∨ c ∈ cs := by
  induction cs with
  | nil => simp [putCell] at h; exact Or.inl h
  | cons d rest ih =>
    obtain ⟨k, u⟩ := d
    simp only [putCell] at h
    split at h
    · simpa using h
    · split at h
      · rcases List.mem_cons.mp h with h | h <;> simp [h]
      · rcases List.mem_cons.mp h with h | h
        · simp [h]
        · rcases ih h with h | h <;> simp [h]

theorem mem_dropCell {a : Nat} {cs : List Host.Cell} {c : Host.Cell} (h : c ∈ dropCell a cs) : c ∈ cs := by
  induction cs with
  | nil => simp [dropCell] at h
  | cons d rest ih =>
    obtain ⟨k, u⟩ := d
    simp only [dropCell] at h
    split at h
    · exact List.mem_cons_of_mem _ (ih h)
    · rcases List.mem_cons.mp h with h | h
      · simp [h]
      · exact List.mem_cons_of_mem _ (ih h)

theorem rising_putCell (a : Nat) (w : Byte) {cs : List Host.Cell} (h : cs.Pairwise fun c d => c.1 < d.1) :
    (putCell a w cs).Pairwise fun c d => c.1 < d.1 := by
  induction cs with
  | nil => simp [putCell]
  | cons d rest ih =>
    obtain ⟨k, u⟩ := d
    obtain ⟨hd, hrest⟩ := List.pairwise_cons.mp h
    simp only [putCell]
    split
    next hlt =>
      refine List.pairwise_cons.mpr ⟨fun c hc => ?_, h⟩
      rcases List.mem_cons.mp hc with hc | hc
      · simpa [hc] using hlt
      · exact lt_trans hlt (hd c hc)
    next hlt =>
      split
      next heq => exact List.pairwise_cons.mpr ⟨fun c hc => by simpa [← heq] using hd c hc, hrest⟩
      next hne =>
        refine List.pairwise_cons.mpr ⟨fun c hc => ?_, ih hrest⟩
        rcases mem_putCell hc with hc | hc
        · simp only [hc]; omega
        · exact hd c hc

theorem rising_dropCell (a : Nat) {cs : List Host.Cell} (h : cs.Pairwise fun c d => c.1 < d.1) :
    (dropCell a cs).Pairwise fun c d => c.1 < d.1 := by
  induction cs with
  | nil => simp [dropCell]
  | cons d rest ih =>
    obtain ⟨k, u⟩ := d
    obtain ⟨hd, hrest⟩ := List.pairwise_cons.mp h
    simp only [dropCell]
    split
    · exact ih hrest
    · exact List.pairwise_cons.mpr ⟨fun c hc => hd c (mem_dropCell hc), ih hrest⟩

/-! ## One byte -/

/-- A read returns the byte last written at its address, and a write changes no other byte (20_memory.md R55, R61). -/
theorem Memory.read_write (m : Memory) (a b : Nat) (w : Byte) :
    (m.write a w).read b = if a = b then w else m.read b := by
  unfold Memory.write
  split
  next h =>
    simp only [Memory.read, lookupCell_dropCell]
    split
    next hab => subst hab; simpa [Memory.unlisted] using h.symm
    next => rfl
  next =>
    simp only [Memory.read, lookupCell_putCell]
    split <;> rfl

/-- A write inside memory keeps the canonical form. -/
theorem Memory.wf_write {m : Memory} (hm : m.Wf) {a : Nat} (ha : a < Config.memSize) (w : Byte) : (m.write a w).Wf := by
  obtain ⟨hrise, hcell⟩ := hm
  refine ⟨?_, fun c hc => ?_⟩
  · unfold Memory.write
    split
    · exact rising_dropCell a hrise
    · exact rising_putCell a w hrise
  · rw [Memory.unlisted_congr (Memory.write_glyphs m a w)]
    unfold Memory.write at hc
    split at hc
    · exact hcell c (mem_dropCell hc)
    next hw =>
      rcases mem_putCell hc with rfl | hc
      · exact ⟨ha, hw⟩
      · exact hcell c hc

/-! ## Blocks -/

/-- Writing bytes inside memory keeps the canonical form. -/
theorem Memory.wf_writeBytes {m : Memory} (hm : m.Wf) {a : Nat} {ws : List Byte} (h : a + ws.length ≤ Config.memSize) :
    (m.writeBytes a ws).Wf := by
  induction ws generalizing m a with
  | nil => exact hm
  | cons w rest ih =>
    simp only [List.length_cons] at h
    exact ih (Memory.wf_write hm (by omega) w) (by omega)

@[simp] theorem Memory.length_readBytes (m : Memory) (a n : Nat) : (m.readBytes a n).length = n := by
  induction n generalizing a with
  | zero => rfl
  | succ n ih => simp [Memory.readBytes, ih]

/-- Row k of a block is the byte at a + k (20_memory.md R60). -/
theorem Memory.getElem_readBytes (m : Memory) (a n k : Nat) (h : k < (m.readBytes a n).length) :
    (m.readBytes a n)[k] = m.read (a + k) := by
  induction n generalizing a k with
  | zero => simp [Memory.readBytes] at h
  | succ n ih =>
    cases k with
    | zero => rfl
    | succ k => simp [Memory.readBytes, ih, Nat.add_assoc, Nat.add_comm 1 k]

/-- Memory with nothing listed is in canonical form: what reset leaves. -/
theorem Memory.wf_empty (g : Vector Byte Config.fontSize) : (Memory.mk g []).Wf := by
  simp [Memory.Wf]

end Sys2Proof.Machine
end

