-- ==== Sys2Proof/Laws/State.lean ====
section
/-! SUPPORT. What each update of the state leaves in each field: true by definition, so that no later proof unfolds a record
update. `advance`, `skipIf`, `advanceI`, `finish` and `finishFlag` reduce to these. -/

namespace Sys2Proof.Machine

/-! ### `writeV` -/

@[simp] theorem State.writeV_v (s : State) (x : Reg) (b : Byte) : (s.writeV x b).v = s.v.set x b := rfl
@[simp] theorem State.writeV_i (s : State) (x : Reg) (b : Byte) : (s.writeV x b).i = s.i := rfl
@[simp] theorem State.writeV_pc (s : State) (x : Reg) (b : Byte) : (s.writeV x b).pc = s.pc := rfl
@[simp] theorem State.writeV_stack (s : State) (x : Reg) (b : Byte) : (s.writeV x b).stack = s.stack := rfl
@[simp] theorem State.writeV_sp (s : State) (x : Reg) (b : Byte) : (s.writeV x b).sp = s.sp := rfl
@[simp] theorem State.writeV_dt (s : State) (x : Reg) (b : Byte) : (s.writeV x b).dt = s.dt := rfl
@[simp] theorem State.writeV_st (s : State) (x : Reg) (b : Byte) : (s.writeV x b).st = s.st := rfl
@[simp] theorem State.writeV_mem (s : State) (x : Reg) (b : Byte) : (s.writeV x b).mem = s.mem := rfl
@[simp] theorem State.writeV_halted (s : State) (x : Reg) (b : Byte) : (s.writeV x b).halted = s.halted := rfl
@[simp] theorem State.writeV_fault (s : State) (x : Reg) (b : Byte) : (s.writeV x b).fault = s.fault := rfl
@[simp] theorem State.writeV_faultPc (s : State) (x : Reg) (b : Byte) : (s.writeV x b).faultPc = s.faultPc := rfl
@[simp] theorem State.writeV_faultOp (s : State) (x : Reg) (b : Byte) : (s.writeV x b).faultOp = s.faultOp := rfl
@[simp] theorem State.writeV_inputs (s : State) (x : Reg) (b : Byte) : (s.writeV x b).inputs = s.inputs := rfl
@[simp] theorem State.writeV_requests (s : State) (x : Reg) (b : Byte) : (s.writeV x b).requests = s.requests := rfl
@[simp] theorem State.writeV_loadOpen (s : State) (x : Reg) (b : Byte) : (s.writeV x b).loadOpen = s.loadOpen := rfl

/-! ### `writeI` -/

@[simp] theorem State.writeI_v (s : State) (a : Word) : (s.writeI a).v = s.v := rfl
@[simp] theorem State.writeI_i (s : State) (a : Word) : (s.writeI a).i = a := rfl
@[simp] theorem State.writeI_pc (s : State) (a : Word) : (s.writeI a).pc = s.pc := rfl
@[simp] theorem State.writeI_stack (s : State) (a : Word) : (s.writeI a).stack = s.stack := rfl
@[simp] theorem State.writeI_sp (s : State) (a : Word) : (s.writeI a).sp = s.sp := rfl
@[simp] theorem State.writeI_dt (s : State) (a : Word) : (s.writeI a).dt = s.dt := rfl
@[simp] theorem State.writeI_st (s : State) (a : Word) : (s.writeI a).st = s.st := rfl
@[simp] theorem State.writeI_mem (s : State) (a : Word) : (s.writeI a).mem = s.mem := rfl
@[simp] theorem State.writeI_halted (s : State) (a : Word) : (s.writeI a).halted = s.halted := rfl
@[simp] theorem State.writeI_fault (s : State) (a : Word) : (s.writeI a).fault = s.fault := rfl
@[simp] theorem State.writeI_faultPc (s : State) (a : Word) : (s.writeI a).faultPc = s.faultPc := rfl
@[simp] theorem State.writeI_faultOp (s : State) (a : Word) : (s.writeI a).faultOp = s.faultOp := rfl
@[simp] theorem State.writeI_inputs (s : State) (a : Word) : (s.writeI a).inputs = s.inputs := rfl
@[simp] theorem State.writeI_requests (s : State) (a : Word) : (s.writeI a).requests = s.requests := rfl
@[simp] theorem State.writeI_loadOpen (s : State) (a : Word) : (s.writeI a).loadOpen = s.loadOpen := rfl

/-! ### `writePc` -/

@[simp] theorem State.writePc_v (s : State) (a : Word) : (s.writePc a).v = s.v := rfl
@[simp] theorem State.writePc_i (s : State) (a : Word) : (s.writePc a).i = s.i := rfl
@[simp] theorem State.writePc_pc (s : State) (a : Word) : (s.writePc a).pc = a := rfl
@[simp] theorem State.writePc_stack (s : State) (a : Word) : (s.writePc a).stack = s.stack := rfl
@[simp] theorem State.writePc_sp (s : State) (a : Word) : (s.writePc a).sp = s.sp := rfl
@[simp] theorem State.writePc_dt (s : State) (a : Word) : (s.writePc a).dt = s.dt := rfl
@[simp] theorem State.writePc_st (s : State) (a : Word) : (s.writePc a).st = s.st := rfl
@[simp] theorem State.writePc_mem (s : State) (a : Word) : (s.writePc a).mem = s.mem := rfl
@[simp] theorem State.writePc_halted (s : State) (a : Word) : (s.writePc a).halted = s.halted := rfl
@[simp] theorem State.writePc_fault (s : State) (a : Word) : (s.writePc a).fault = s.fault := rfl
@[simp] theorem State.writePc_faultPc (s : State) (a : Word) : (s.writePc a).faultPc = s.faultPc := rfl
@[simp] theorem State.writePc_faultOp (s : State) (a : Word) : (s.writePc a).faultOp = s.faultOp := rfl
@[simp] theorem State.writePc_inputs (s : State) (a : Word) : (s.writePc a).inputs = s.inputs := rfl
@[simp] theorem State.writePc_requests (s : State) (a : Word) : (s.writePc a).requests = s.requests := rfl
@[simp] theorem State.writePc_loadOpen (s : State) (a : Word) : (s.writePc a).loadOpen = s.loadOpen := rfl

/-! ### `writeDt` -/

@[simp] theorem State.writeDt_v (s : State) (b : Byte) : (s.writeDt b).v = s.v := rfl
@[simp] theorem State.writeDt_i (s : State) (b : Byte) : (s.writeDt b).i = s.i := rfl
@[simp] theorem State.writeDt_pc (s : State) (b : Byte) : (s.writeDt b).pc = s.pc := rfl
@[simp] theorem State.writeDt_stack (s : State) (b : Byte) : (s.writeDt b).stack = s.stack := rfl
@[simp] theorem State.writeDt_sp (s : State) (b : Byte) : (s.writeDt b).sp = s.sp := rfl
@[simp] theorem State.writeDt_dt (s : State) (b : Byte) : (s.writeDt b).dt = b := rfl
@[simp] theorem State.writeDt_st (s : State) (b : Byte) : (s.writeDt b).st = s.st := rfl
@[simp] theorem State.writeDt_mem (s : State) (b : Byte) : (s.writeDt b).mem = s.mem := rfl
@[simp] theorem State.writeDt_halted (s : State) (b : Byte) : (s.writeDt b).halted = s.halted := rfl
@[simp] theorem State.writeDt_fault (s : State) (b : Byte) : (s.writeDt b).fault = s.fault := rfl
@[simp] theorem State.writeDt_faultPc (s : State) (b : Byte) : (s.writeDt b).faultPc = s.faultPc := rfl
@[simp] theorem State.writeDt_faultOp (s : State) (b : Byte) : (s.writeDt b).faultOp = s.faultOp := rfl
@[simp] theorem State.writeDt_inputs (s : State) (b : Byte) : (s.writeDt b).inputs = s.inputs := rfl
@[simp] theorem State.writeDt_requests (s : State) (b : Byte) : (s.writeDt b).requests = s.requests := rfl
@[simp] theorem State.writeDt_loadOpen (s : State) (b : Byte) : (s.writeDt b).loadOpen = s.loadOpen := rfl

/-! ### `writeSt` -/

@[simp] theorem State.writeSt_v (s : State) (b : Byte) : (s.writeSt b).v = s.v := rfl
@[simp] theorem State.writeSt_i (s : State) (b : Byte) : (s.writeSt b).i = s.i := rfl
@[simp] theorem State.writeSt_pc (s : State) (b : Byte) : (s.writeSt b).pc = s.pc := rfl
@[simp] theorem State.writeSt_stack (s : State) (b : Byte) : (s.writeSt b).stack = s.stack := rfl
@[simp] theorem State.writeSt_sp (s : State) (b : Byte) : (s.writeSt b).sp = s.sp := rfl
@[simp] theorem State.writeSt_dt (s : State) (b : Byte) : (s.writeSt b).dt = s.dt := rfl
@[simp] theorem State.writeSt_st (s : State) (b : Byte) : (s.writeSt b).st = b := rfl
@[simp] theorem State.writeSt_mem (s : State) (b : Byte) : (s.writeSt b).mem = s.mem := rfl
@[simp] theorem State.writeSt_halted (s : State) (b : Byte) : (s.writeSt b).halted = s.halted := rfl
@[simp] theorem State.writeSt_fault (s : State) (b : Byte) : (s.writeSt b).fault = s.fault := rfl
@[simp] theorem State.writeSt_faultPc (s : State) (b : Byte) : (s.writeSt b).faultPc = s.faultPc := rfl
@[simp] theorem State.writeSt_faultOp (s : State) (b : Byte) : (s.writeSt b).faultOp = s.faultOp := rfl
@[simp] theorem State.writeSt_inputs (s : State) (b : Byte) : (s.writeSt b).inputs = s.inputs := rfl
@[simp] theorem State.writeSt_requests (s : State) (b : Byte) : (s.writeSt b).requests = s.requests := rfl
@[simp] theorem State.writeSt_loadOpen (s : State) (b : Byte) : (s.writeSt b).loadOpen = s.loadOpen := rfl

/-! ### `writeMem` -/

@[simp] theorem State.writeMem_v (s : State) (m : Memory) : (s.writeMem m).v = s.v := rfl
@[simp] theorem State.writeMem_i (s : State) (m : Memory) : (s.writeMem m).i = s.i := rfl
@[simp] theorem State.writeMem_pc (s : State) (m : Memory) : (s.writeMem m).pc = s.pc := rfl
@[simp] theorem State.writeMem_stack (s : State) (m : Memory) : (s.writeMem m).stack = s.stack := rfl
@[simp] theorem State.writeMem_sp (s : State) (m : Memory) : (s.writeMem m).sp = s.sp := rfl
@[simp] theorem State.writeMem_dt (s : State) (m : Memory) : (s.writeMem m).dt = s.dt := rfl
@[simp] theorem State.writeMem_st (s : State) (m : Memory) : (s.writeMem m).st = s.st := rfl
@[simp] theorem State.writeMem_mem (s : State) (m : Memory) : (s.writeMem m).mem = m := rfl
@[simp] theorem State.writeMem_halted (s : State) (m : Memory) : (s.writeMem m).halted = s.halted := rfl
@[simp] theorem State.writeMem_fault (s : State) (m : Memory) : (s.writeMem m).fault = s.fault := rfl
@[simp] theorem State.writeMem_faultPc (s : State) (m : Memory) : (s.writeMem m).faultPc = s.faultPc := rfl
@[simp] theorem State.writeMem_faultOp (s : State) (m : Memory) : (s.writeMem m).faultOp = s.faultOp := rfl
@[simp] theorem State.writeMem_inputs (s : State) (m : Memory) : (s.writeMem m).inputs = s.inputs := rfl
@[simp] theorem State.writeMem_requests (s : State) (m : Memory) : (s.writeMem m).requests = s.requests := rfl
@[simp] theorem State.writeMem_loadOpen (s : State) (m : Memory) : (s.writeMem m).loadOpen = s.loadOpen := rfl

/-! ### `raiseFault` -/

@[simp] theorem State.raiseFault_v (s : State) (c : FaultCode) (op : Word) : (s.raiseFault c op).v = s.v := rfl
@[simp] theorem State.raiseFault_i (s : State) (c : FaultCode) (op : Word) : (s.raiseFault c op).i = s.i := rfl
@[simp] theorem State.raiseFault_pc (s : State) (c : FaultCode) (op : Word) : (s.raiseFault c op).pc = s.pc := rfl
@[simp] theorem State.raiseFault_stack (s : State) (c : FaultCode) (op : Word) : (s.raiseFault c op).stack = s.stack := rfl
@[simp] theorem State.raiseFault_sp (s : State) (c : FaultCode) (op : Word) : (s.raiseFault c op).sp = s.sp := rfl
@[simp] theorem State.raiseFault_dt (s : State) (c : FaultCode) (op : Word) : (s.raiseFault c op).dt = s.dt := rfl
@[simp] theorem State.raiseFault_st (s : State) (c : FaultCode) (op : Word) : (s.raiseFault c op).st = s.st := rfl
@[simp] theorem State.raiseFault_mem (s : State) (c : FaultCode) (op : Word) : (s.raiseFault c op).mem = s.mem := rfl
@[simp] theorem State.raiseFault_halted (s : State) (c : FaultCode) (op : Word) : (s.raiseFault c op).halted = true := rfl
@[simp] theorem State.raiseFault_fault (s : State) (c : FaultCode) (op : Word) : (s.raiseFault c op).fault = c := rfl
@[simp] theorem State.raiseFault_faultPc (s : State) (c : FaultCode) (op : Word) : (s.raiseFault c op).faultPc = s.pc := rfl
@[simp] theorem State.raiseFault_faultOp (s : State) (c : FaultCode) (op : Word) : (s.raiseFault c op).faultOp = op := rfl
@[simp] theorem State.raiseFault_inputs (s : State) (c : FaultCode) (op : Word) : (s.raiseFault c op).inputs = s.inputs := rfl
@[simp] theorem State.raiseFault_requests (s : State) (c : FaultCode) (op : Word) : (s.raiseFault c op).requests = s.requests := rfl
@[simp] theorem State.raiseFault_loadOpen (s : State) (c : FaultCode) (op : Word) : (s.raiseFault c op).loadOpen = s.loadOpen := rfl

/-! ### `tick` -/

@[simp] theorem State.tick_v (s : State) : (s.tick).v = s.v := rfl
@[simp] theorem State.tick_i (s : State) : (s.tick).i = s.i := rfl
@[simp] theorem State.tick_pc (s : State) : (s.tick).pc = s.pc := rfl
@[simp] theorem State.tick_stack (s : State) : (s.tick).stack = s.stack := rfl
@[simp] theorem State.tick_sp (s : State) : (s.tick).sp = s.sp := rfl
@[simp] theorem State.tick_dt (s : State) : (s.tick).dt = if s.dt = 0 then 0 else s.dt - 1 := rfl
@[simp] theorem State.tick_st (s : State) : (s.tick).st = if s.st = 0 then 0 else s.st - 1 := rfl
@[simp] theorem State.tick_mem (s : State) : (s.tick).mem = s.mem := rfl
@[simp] theorem State.tick_halted (s : State) : (s.tick).halted = s.halted := rfl
@[simp] theorem State.tick_fault (s : State) : (s.tick).fault = s.fault := rfl
@[simp] theorem State.tick_faultPc (s : State) : (s.tick).faultPc = s.faultPc := rfl
@[simp] theorem State.tick_faultOp (s : State) : (s.tick).faultOp = s.faultOp := rfl
@[simp] theorem State.tick_inputs (s : State) : (s.tick).inputs = s.inputs := rfl
@[simp] theorem State.tick_requests (s : State) : (s.tick).requests = s.requests := rfl
@[simp] theorem State.tick_loadOpen (s : State) : (s.tick).loadOpen = s.loadOpen := rfl

/-! ### `ticks` -/

@[simp] theorem State.ticks_v (s : State) (n : Nat) : (s.ticks n).v = s.v := rfl
@[simp] theorem State.ticks_i (s : State) (n : Nat) : (s.ticks n).i = s.i := rfl
@[simp] theorem State.ticks_pc (s : State) (n : Nat) : (s.ticks n).pc = s.pc := rfl
@[simp] theorem State.ticks_stack (s : State) (n : Nat) : (s.ticks n).stack = s.stack := rfl
@[simp] theorem State.ticks_sp (s : State) (n : Nat) : (s.ticks n).sp = s.sp := rfl
@[simp] theorem State.ticks_dt (s : State) (n : Nat) : (s.ticks n).dt = countDown n s.dt := rfl
@[simp] theorem State.ticks_st (s : State) (n : Nat) : (s.ticks n).st = countDown n s.st := rfl
@[simp] theorem State.ticks_mem (s : State) (n : Nat) : (s.ticks n).mem = s.mem := rfl
@[simp] theorem State.ticks_halted (s : State) (n : Nat) : (s.ticks n).halted = s.halted := rfl
@[simp] theorem State.ticks_fault (s : State) (n : Nat) : (s.ticks n).fault = s.fault := rfl
@[simp] theorem State.ticks_faultPc (s : State) (n : Nat) : (s.ticks n).faultPc = s.faultPc := rfl
@[simp] theorem State.ticks_faultOp (s : State) (n : Nat) : (s.ticks n).faultOp = s.faultOp := rfl
@[simp] theorem State.ticks_inputs (s : State) (n : Nat) : (s.ticks n).inputs = s.inputs := rfl
@[simp] theorem State.ticks_requests (s : State) (n : Nat) : (s.ticks n).requests = s.requests := rfl
@[simp] theorem State.ticks_loadOpen (s : State) (n : Nat) : (s.ticks n).loadOpen = s.loadOpen := rfl

/-! ### `ticksTaken` -/

@[simp] theorem State.ticksTaken_v (s : State) : (s.ticksTaken).v = s.v := rfl
@[simp] theorem State.ticksTaken_i (s : State) : (s.ticksTaken).i = s.i := rfl
@[simp] theorem State.ticksTaken_pc (s : State) : (s.ticksTaken).pc = s.pc := rfl
@[simp] theorem State.ticksTaken_stack (s : State) : (s.ticksTaken).stack = s.stack := rfl
@[simp] theorem State.ticksTaken_sp (s : State) : (s.ticksTaken).sp = s.sp := rfl
@[simp] theorem State.ticksTaken_dt (s : State) : (s.ticksTaken).dt = s.dt := rfl
@[simp] theorem State.ticksTaken_st (s : State) : (s.ticksTaken).st = s.st := rfl
@[simp] theorem State.ticksTaken_mem (s : State) : (s.ticksTaken).mem = s.mem := rfl
@[simp] theorem State.ticksTaken_halted (s : State) : (s.ticksTaken).halted = s.halted := rfl
@[simp] theorem State.ticksTaken_fault (s : State) : (s.ticksTaken).fault = s.fault := rfl
@[simp] theorem State.ticksTaken_faultPc (s : State) : (s.ticksTaken).faultPc = s.faultPc := rfl
@[simp] theorem State.ticksTaken_faultOp (s : State) : (s.ticksTaken).faultOp = s.faultOp := rfl
@[simp] theorem State.ticksTaken_inputs (s : State) : (s.ticksTaken).inputs =
    { s.inputs with ticks := s.inputs.ticks.tail, drawn := s.inputs.drawn + 1 } := rfl
@[simp] theorem State.ticksTaken_requests (s : State) : (s.ticksTaken).requests = s.requests := rfl
@[simp] theorem State.ticksTaken_loadOpen (s : State) : (s.ticksTaken).loadOpen = s.loadOpen := rfl

/-! ### `closeLoad` -/

@[simp] theorem State.closeLoad_v (s : State) : (s.closeLoad).v = s.v := rfl
@[simp] theorem State.closeLoad_i (s : State) : (s.closeLoad).i = s.i := rfl
@[simp] theorem State.closeLoad_pc (s : State) : (s.closeLoad).pc = s.pc := rfl
@[simp] theorem State.closeLoad_stack (s : State) : (s.closeLoad).stack = s.stack := rfl
@[simp] theorem State.closeLoad_sp (s : State) : (s.closeLoad).sp = s.sp := rfl
@[simp] theorem State.closeLoad_dt (s : State) : (s.closeLoad).dt = s.dt := rfl
@[simp] theorem State.closeLoad_st (s : State) : (s.closeLoad).st = s.st := rfl
@[simp] theorem State.closeLoad_mem (s : State) : (s.closeLoad).mem = s.mem := rfl
@[simp] theorem State.closeLoad_halted (s : State) : (s.closeLoad).halted = s.halted := rfl
@[simp] theorem State.closeLoad_fault (s : State) : (s.closeLoad).fault = s.fault := rfl
@[simp] theorem State.closeLoad_faultPc (s : State) : (s.closeLoad).faultPc = s.faultPc := rfl
@[simp] theorem State.closeLoad_faultOp (s : State) : (s.closeLoad).faultOp = s.faultOp := rfl
@[simp] theorem State.closeLoad_inputs (s : State) : (s.closeLoad).inputs = s.inputs := rfl
@[simp] theorem State.closeLoad_requests (s : State) : (s.closeLoad).requests = s.requests := rfl
@[simp] theorem State.closeLoad_loadOpen (s : State) : (s.closeLoad).loadOpen = false := rfl

/-! ### `beforeStep` -/

@[simp] theorem State.beforeStep_v (s : State) : (s.beforeStep).v = s.v := rfl
@[simp] theorem State.beforeStep_i (s : State) : (s.beforeStep).i = s.i := rfl
@[simp] theorem State.beforeStep_pc (s : State) : (s.beforeStep).pc = s.pc := rfl
@[simp] theorem State.beforeStep_stack (s : State) : (s.beforeStep).stack = s.stack := rfl
@[simp] theorem State.beforeStep_sp (s : State) : (s.beforeStep).sp = s.sp := rfl
@[simp] theorem State.beforeStep_dt (s : State) : (s.beforeStep).dt = countDown s.ticksDue s.dt := rfl
@[simp] theorem State.beforeStep_st (s : State) : (s.beforeStep).st = countDown s.ticksDue s.st := rfl
@[simp] theorem State.beforeStep_mem (s : State) : (s.beforeStep).mem = s.mem := rfl
@[simp] theorem State.beforeStep_halted (s : State) : (s.beforeStep).halted = s.halted := rfl
@[simp] theorem State.beforeStep_fault (s : State) : (s.beforeStep).fault = s.fault := rfl
@[simp] theorem State.beforeStep_faultPc (s : State) : (s.beforeStep).faultPc = s.faultPc := rfl
@[simp] theorem State.beforeStep_faultOp (s : State) : (s.beforeStep).faultOp = s.faultOp := rfl
@[simp] theorem State.beforeStep_inputs (s : State) : (s.beforeStep).inputs =
    { s.inputs with ticks := s.inputs.ticks.tail, drawn := s.inputs.drawn + 1 } := rfl
@[simp] theorem State.beforeStep_requests (s : State) : (s.beforeStep).requests = s.requests := rfl
@[simp] theorem State.beforeStep_loadOpen (s : State) : (s.beforeStep).loadOpen = false := rfl

/-! ### `askClear` -/

@[simp] theorem State.askClear_v (s : State) : (s.askClear).v = s.v := rfl
@[simp] theorem State.askClear_i (s : State) : (s.askClear).i = s.i := rfl
@[simp] theorem State.askClear_pc (s : State) : (s.askClear).pc = s.pc := rfl
@[simp] theorem State.askClear_stack (s : State) : (s.askClear).stack = s.stack := rfl
@[simp] theorem State.askClear_sp (s : State) : (s.askClear).sp = s.sp := rfl
@[simp] theorem State.askClear_dt (s : State) : (s.askClear).dt = s.dt := rfl
@[simp] theorem State.askClear_st (s : State) : (s.askClear).st = s.st := rfl
@[simp] theorem State.askClear_mem (s : State) : (s.askClear).mem = s.mem := rfl
@[simp] theorem State.askClear_halted (s : State) : (s.askClear).halted = s.halted := rfl
@[simp] theorem State.askClear_fault (s : State) : (s.askClear).fault = s.fault := rfl
@[simp] theorem State.askClear_faultPc (s : State) : (s.askClear).faultPc = s.faultPc := rfl
@[simp] theorem State.askClear_faultOp (s : State) : (s.askClear).faultOp = s.faultOp := rfl
@[simp] theorem State.askClear_inputs (s : State) : (s.askClear).inputs = s.inputs := rfl
@[simp] theorem State.askClear_requests (s : State) : (s.askClear).requests = .clear :: s.requests := rfl
@[simp] theorem State.askClear_loadOpen (s : State) : (s.askClear).loadOpen = s.loadOpen := rfl

/-! ### `askDraw` -/

@[simp] theorem State.askDraw_v (s : State) (x y : Byte) (rows : List Byte) : (s.askDraw x y rows).v = s.v := rfl
@[simp] theorem State.askDraw_i (s : State) (x y : Byte) (rows : List Byte) : (s.askDraw x y rows).i = s.i := rfl
@[simp] theorem State.askDraw_pc (s : State) (x y : Byte) (rows : List Byte) : (s.askDraw x y rows).pc = s.pc := rfl
@[simp] theorem State.askDraw_stack (s : State) (x y : Byte) (rows : List Byte) : (s.askDraw x y rows).stack = s.stack := rfl
@[simp] theorem State.askDraw_sp (s : State) (x y : Byte) (rows : List Byte) : (s.askDraw x y rows).sp = s.sp := rfl
@[simp] theorem State.askDraw_dt (s : State) (x y : Byte) (rows : List Byte) : (s.askDraw x y rows).dt = s.dt := rfl
@[simp] theorem State.askDraw_st (s : State) (x y : Byte) (rows : List Byte) : (s.askDraw x y rows).st = s.st := rfl
@[simp] theorem State.askDraw_mem (s : State) (x y : Byte) (rows : List Byte) : (s.askDraw x y rows).mem = s.mem := rfl
@[simp] theorem State.askDraw_halted (s : State) (x y : Byte) (rows : List Byte) : (s.askDraw x y rows).halted = s.halted := rfl
@[simp] theorem State.askDraw_fault (s : State) (x y : Byte) (rows : List Byte) : (s.askDraw x y rows).fault = s.fault := rfl
@[simp] theorem State.askDraw_faultPc (s : State) (x y : Byte) (rows : List Byte) : (s.askDraw x y rows).faultPc = s.faultPc := rfl
@[simp] theorem State.askDraw_faultOp (s : State) (x y : Byte) (rows : List Byte) : (s.askDraw x y rows).faultOp = s.faultOp := rfl
@[simp] theorem State.askDraw_inputs (s : State) (x y : Byte) (rows : List Byte) : (s.askDraw x y rows).inputs =
    { s.inputs with collisions := s.inputs.collisions.tail, drawn := s.inputs.drawn + 1 } := rfl
@[simp] theorem State.askDraw_requests (s : State) (x y : Byte) (rows : List Byte) : (s.askDraw x y rows).requests = .draw x y rows :: s.requests := rfl
@[simp] theorem State.askDraw_loadOpen (s : State) (x y : Byte) (rows : List Byte) : (s.askDraw x y rows).loadOpen = s.loadOpen := rfl

/-! ### `askKeyHeld` -/

@[simp] theorem State.askKeyHeld_v (s : State) (k : Byte) : (s.askKeyHeld k).v = s.v := rfl
@[simp] theorem State.askKeyHeld_i (s : State) (k : Byte) : (s.askKeyHeld k).i = s.i := rfl
@[simp] theorem State.askKeyHeld_pc (s : State) (k : Byte) : (s.askKeyHeld k).pc = s.pc := rfl
@[simp] theorem State.askKeyHeld_stack (s : State) (k : Byte) : (s.askKeyHeld k).stack = s.stack := rfl
@[simp] theorem State.askKeyHeld_sp (s : State) (k : Byte) : (s.askKeyHeld k).sp = s.sp := rfl
@[simp] theorem State.askKeyHeld_dt (s : State) (k : Byte) : (s.askKeyHeld k).dt = s.dt := rfl
@[simp] theorem State.askKeyHeld_st (s : State) (k : Byte) : (s.askKeyHeld k).st = s.st := rfl
@[simp] theorem State.askKeyHeld_mem (s : State) (k : Byte) : (s.askKeyHeld k).mem = s.mem := rfl
@[simp] theorem State.askKeyHeld_halted (s : State) (k : Byte) : (s.askKeyHeld k).halted = s.halted := rfl
@[simp] theorem State.askKeyHeld_fault (s : State) (k : Byte) : (s.askKeyHeld k).fault = s.fault := rfl
@[simp] theorem State.askKeyHeld_faultPc (s : State) (k : Byte) : (s.askKeyHeld k).faultPc = s.faultPc := rfl
@[simp] theorem State.askKeyHeld_faultOp (s : State) (k : Byte) : (s.askKeyHeld k).faultOp = s.faultOp := rfl
@[simp] theorem State.askKeyHeld_inputs (s : State) (k : Byte) : (s.askKeyHeld k).inputs =
    { s.inputs with keysHeld := s.inputs.keysHeld.tail, drawn := s.inputs.drawn + 1 } := rfl
@[simp] theorem State.askKeyHeld_requests (s : State) (k : Byte) : (s.askKeyHeld k).requests = .isHeld k :: s.requests := rfl
@[simp] theorem State.askKeyHeld_loadOpen (s : State) (k : Byte) : (s.askKeyHeld k).loadOpen = s.loadOpen := rfl

/-! ### `askKeyWait` -/

@[simp] theorem State.askKeyWait_v (s : State) : (s.askKeyWait).v = s.v := rfl
@[simp] theorem State.askKeyWait_i (s : State) : (s.askKeyWait).i = s.i := rfl
@[simp] theorem State.askKeyWait_pc (s : State) : (s.askKeyWait).pc = s.pc := rfl
@[simp] theorem State.askKeyWait_stack (s : State) : (s.askKeyWait).stack = s.stack := rfl
@[simp] theorem State.askKeyWait_sp (s : State) : (s.askKeyWait).sp = s.sp := rfl
@[simp] theorem State.askKeyWait_dt (s : State) : (s.askKeyWait).dt = s.dt := rfl
@[simp] theorem State.askKeyWait_st (s : State) : (s.askKeyWait).st = s.st := rfl
@[simp] theorem State.askKeyWait_mem (s : State) : (s.askKeyWait).mem = s.mem := rfl
@[simp] theorem State.askKeyWait_halted (s : State) : (s.askKeyWait).halted = s.halted := rfl
@[simp] theorem State.askKeyWait_fault (s : State) : (s.askKeyWait).fault = s.fault := rfl
@[simp] theorem State.askKeyWait_faultPc (s : State) : (s.askKeyWait).faultPc = s.faultPc := rfl
@[simp] theorem State.askKeyWait_faultOp (s : State) : (s.askKeyWait).faultOp = s.faultOp := rfl
@[simp] theorem State.askKeyWait_inputs (s : State) : (s.askKeyWait).inputs =
    { s.inputs with keyWaits := s.inputs.keyWaits.tail, drawn := s.inputs.drawn + 1 } := rfl
@[simp] theorem State.askKeyWait_requests (s : State) : (s.askKeyWait).requests = .currentlyHeld :: s.requests := rfl
@[simp] theorem State.askKeyWait_loadOpen (s : State) : (s.askKeyWait).loadOpen = s.loadOpen := rfl

/-! ### `askRandom` -/

@[simp] theorem State.askRandom_v (s : State) : (s.askRandom).v = s.v := rfl
@[simp] theorem State.askRandom_i (s : State) : (s.askRandom).i = s.i := rfl
@[simp] theorem State.askRandom_pc (s : State) : (s.askRandom).pc = s.pc := rfl
@[simp] theorem State.askRandom_stack (s : State) : (s.askRandom).stack = s.stack := rfl
@[simp] theorem State.askRandom_sp (s : State) : (s.askRandom).sp = s.sp := rfl
@[simp] theorem State.askRandom_dt (s : State) : (s.askRandom).dt = s.dt := rfl
@[simp] theorem State.askRandom_st (s : State) : (s.askRandom).st = s.st := rfl
@[simp] theorem State.askRandom_mem (s : State) : (s.askRandom).mem = s.mem := rfl
@[simp] theorem State.askRandom_halted (s : State) : (s.askRandom).halted = s.halted := rfl
@[simp] theorem State.askRandom_fault (s : State) : (s.askRandom).fault = s.fault := rfl
@[simp] theorem State.askRandom_faultPc (s : State) : (s.askRandom).faultPc = s.faultPc := rfl
@[simp] theorem State.askRandom_faultOp (s : State) : (s.askRandom).faultOp = s.faultOp := rfl
@[simp] theorem State.askRandom_inputs (s : State) : (s.askRandom).inputs =
    { s.inputs with randoms := s.inputs.randoms.tail, drawn := s.inputs.drawn + 1 } := rfl
@[simp] theorem State.askRandom_requests (s : State) : (s.askRandom).requests = .randomByte :: s.requests := rfl
@[simp] theorem State.askRandom_loadOpen (s : State) : (s.askRandom).loadOpen = s.loadOpen := rfl

/-! ### `loadBlock` -/

@[simp] theorem State.loadBlock_i (s : State) (a : Nat) (x : Reg) : (s.loadBlock a x).i = s.i := rfl
@[simp] theorem State.loadBlock_pc (s : State) (a : Nat) (x : Reg) : (s.loadBlock a x).pc = s.pc := rfl
@[simp] theorem State.loadBlock_stack (s : State) (a : Nat) (x : Reg) : (s.loadBlock a x).stack = s.stack := rfl
@[simp] theorem State.loadBlock_sp (s : State) (a : Nat) (x : Reg) : (s.loadBlock a x).sp = s.sp := rfl
@[simp] theorem State.loadBlock_dt (s : State) (a : Nat) (x : Reg) : (s.loadBlock a x).dt = s.dt := rfl
@[simp] theorem State.loadBlock_st (s : State) (a : Nat) (x : Reg) : (s.loadBlock a x).st = s.st := rfl
@[simp] theorem State.loadBlock_mem (s : State) (a : Nat) (x : Reg) : (s.loadBlock a x).mem = s.mem := rfl
@[simp] theorem State.loadBlock_halted (s : State) (a : Nat) (x : Reg) : (s.loadBlock a x).halted = s.halted := rfl
@[simp] theorem State.loadBlock_fault (s : State) (a : Nat) (x : Reg) : (s.loadBlock a x).fault = s.fault := rfl
@[simp] theorem State.loadBlock_faultPc (s : State) (a : Nat) (x : Reg) : (s.loadBlock a x).faultPc = s.faultPc := rfl
@[simp] theorem State.loadBlock_faultOp (s : State) (a : Nat) (x : Reg) : (s.loadBlock a x).faultOp = s.faultOp := rfl
@[simp] theorem State.loadBlock_inputs (s : State) (a : Nat) (x : Reg) : (s.loadBlock a x).inputs = s.inputs := rfl
@[simp] theorem State.loadBlock_requests (s : State) (a : Nat) (x : Reg) : (s.loadBlock a x).requests = s.requests := rfl
@[simp] theorem State.loadBlock_loadOpen (s : State) (a : Nat) (x : Reg) : (s.loadBlock a x).loadOpen = s.loadOpen := rfl

/-! ### `placeWord` -/

@[simp] theorem State.placeWord_v (s : State) (a : Nat) (op : Word) : (s.placeWord a op).v = s.v := rfl
@[simp] theorem State.placeWord_i (s : State) (a : Nat) (op : Word) : (s.placeWord a op).i = s.i := rfl
@[simp] theorem State.placeWord_pc (s : State) (a : Nat) (op : Word) : (s.placeWord a op).pc = s.pc := rfl
@[simp] theorem State.placeWord_stack (s : State) (a : Nat) (op : Word) : (s.placeWord a op).stack = s.stack := rfl
@[simp] theorem State.placeWord_sp (s : State) (a : Nat) (op : Word) : (s.placeWord a op).sp = s.sp := rfl
@[simp] theorem State.placeWord_dt (s : State) (a : Nat) (op : Word) : (s.placeWord a op).dt = s.dt := rfl
@[simp] theorem State.placeWord_st (s : State) (a : Nat) (op : Word) : (s.placeWord a op).st = s.st := rfl
@[simp] theorem State.placeWord_mem (s : State) (a : Nat) (op : Word) : (s.placeWord a op).mem = s.mem.writeBytes a [(bytesOfWord op).1, (bytesOfWord op).2] := rfl
@[simp] theorem State.placeWord_halted (s : State) (a : Nat) (op : Word) : (s.placeWord a op).halted = s.halted := rfl
@[simp] theorem State.placeWord_fault (s : State) (a : Nat) (op : Word) : (s.placeWord a op).fault = s.fault := rfl
@[simp] theorem State.placeWord_faultPc (s : State) (a : Nat) (op : Word) : (s.placeWord a op).faultPc = s.faultPc := rfl
@[simp] theorem State.placeWord_faultOp (s : State) (a : Nat) (op : Word) : (s.placeWord a op).faultOp = s.faultOp := rfl
@[simp] theorem State.placeWord_inputs (s : State) (a : Nat) (op : Word) : (s.placeWord a op).inputs = s.inputs := rfl
@[simp] theorem State.placeWord_requests (s : State) (a : Nat) (op : Word) : (s.placeWord a op).requests = s.requests := rfl
@[simp] theorem State.placeWord_loadOpen (s : State) (a : Nat) (op : Word) : (s.placeWord a op).loadOpen = s.loadOpen := rfl

/-! ### The compound updates -/

@[simp] theorem State.advance_eq (s : State) : s.advance = s.writePc (s.pc + 2) := rfl
@[simp] theorem State.skipIf_eq (s : State) (c : Bool) : s.skipIf c = s.writePc (if c then s.pc + 4 else s.pc + 2) := rfl
@[simp] theorem State.advanceI_eq (s : State) (x : Reg) :
    s.advanceI x = s.writeI (s.i + BitVec.ofNat 16 (x.val + 1)) := rfl
@[simp] theorem State.finish_eq (s : State) (x : Reg) (r : Byte) : s.finish x r = (s.writeV x r).advance := rfl
@[simp] theorem State.finishFlag_eq (s : State) (x : Reg) (r : Byte) (f : Bool) :
    s.finishFlag x r f = ((s.writeV x r).writeV VF (flagByte f)).advance := rfl

/-! ### Reading a register after an update -/

theorem State.readV_congr {s t : State} (h : t.v = s.v) (r : Reg) : t.readV r = s.readV r := by
  simp [State.readV, h]

/-- A write of a register is read back by the next read of it, and no other register changes (10_state.md R20). -/
theorem State.readV_writeV (s : State) (x r : Reg) (b : Byte) :
    (s.writeV x b).readV r = if x = r then b else s.readV r := by
  simp only [State.readV, State.writeV_v, Fin.getElem_fin, Vector.getElem_set, Fin.val_inj]

@[simp] theorem State.readV_writeV_self (s : State) (x : Reg) (b : Byte) : (s.writeV x b).readV x = b := by
  simp [State.readV_writeV]

theorem State.readV_writeV_ne (s : State) {x r : Reg} (b : Byte) (h : x ≠ r) : (s.writeV x b).readV r = s.readV r := by
  simp [State.readV_writeV, h]

/-- V0 ... Vx come from memory, the registers above x are unchanged (43_index_memory.md R187). -/
theorem State.readV_loadBlock (s : State) (a : Nat) (x r : Reg) :
    (s.loadBlock a x).readV r = if r ≤ x then s.mem.read (a + r.val) else s.readV r := by
  simp [State.readV, State.loadBlock]

@[simp] theorem State.readV_writeI (s : State) (a : Word) (r : Reg) : (s.writeI a).readV r = s.readV r := rfl
@[simp] theorem State.readV_writePc (s : State) (a : Word) (r : Reg) : (s.writePc a).readV r = s.readV r := rfl
@[simp] theorem State.readV_writeDt (s : State) (b : Byte) (r : Reg) : (s.writeDt b).readV r = s.readV r := rfl
@[simp] theorem State.readV_writeSt (s : State) (b : Byte) (r : Reg) : (s.writeSt b).readV r = s.readV r := rfl
@[simp] theorem State.readV_writeMem (s : State) (m : Memory) (r : Reg) : (s.writeMem m).readV r = s.readV r := rfl
@[simp] theorem State.readV_raiseFault (s : State) (c : FaultCode) (op : Word) (r : Reg) : (s.raiseFault c op).readV r = s.readV r := rfl
@[simp] theorem State.readV_tick (s : State) (r : Reg) : (s.tick).readV r = s.readV r := rfl
@[simp] theorem State.readV_closeLoad (s : State) (r : Reg) : (s.closeLoad).readV r = s.readV r := rfl
@[simp] theorem State.readV_beforeStep (s : State) (r : Reg) : (s.beforeStep).readV r = s.readV r := rfl
@[simp] theorem State.readV_askClear (s : State) (r : Reg) : (s.askClear).readV r = s.readV r := rfl
@[simp] theorem State.readV_askDraw (s : State) (x y : Byte) (rows : List Byte) (r : Reg) : (s.askDraw x y rows).readV r = s.readV r := rfl
@[simp] theorem State.readV_askKeyHeld (s : State) (k : Byte) (r : Reg) : (s.askKeyHeld k).readV r = s.readV r := rfl
@[simp] theorem State.readV_askKeyWait (s : State) (r : Reg) : (s.askKeyWait).readV r = s.readV r := rfl
@[simp] theorem State.readV_askRandom (s : State) (r : Reg) : (s.askRandom).readV r = s.readV r := rfl

end Sys2Proof.Machine
end

