-- ==== Sys2Proof/Laws/Ops.lean ====
section
/-! SUPPORT. One lemma per shared operation that says once everything it can do; later proofs cite these instead of unfolding
the operation. -/

namespace Sys2Proof.Machine

/-! ## The call stack (10_state.md R31) -/

/-- Push at SP < 16: the address at stack[SP], SP one more, nothing else changed. -/
theorem State.push_ok {s : State} {a : Word} (h : s.sp.val < 16) :
    s.push a = some { s with stack := s.stack.set s.sp.val a, sp := ⟨s.sp.val + 1, by omega⟩ } := by
  simp [State.push, h]

/-- Push at SP = 16 is refused. -/
theorem State.push_full {s : State} {a : Word} (h : s.sp = 16) : s.push a = none := by
  simp [State.push, h]

/-- Pop at SP > 0: stack[SP-1] is returned, SP one less, nothing else changed. -/
theorem State.pop_ok {s : State} (h : 0 < s.sp.val) :
    s.pop = some (s.stack[s.sp.val - 1], { s with sp := ⟨s.sp.val - 1, by omega⟩ }) := by
  simp [State.pop, h]

/-- Pop at SP = 0 is refused. -/
theorem State.pop_empty {s : State} (h : s.sp = 0) : s.pop = none := by
  simp [State.pop, h]

/-! ## The range check (20_memory.md R57) -/

theorem State.checked_ok {s done : State} {last : Nat} {op : Word} (h : last ≤ 0xFFF) :
    s.checked last op done = .next done := by
  simp [State.checked, outOfMemory, Nat.not_lt.mpr h]

theorem State.checked_out {s done : State} {last : Nat} {op : Word} (h : 0xFFF < last) :
    s.checked last op done = .next (s.raiseFault .memRange op) := by
  simp [State.checked, outOfMemory, h]

/-! ## The timers (60_exceptions.md R236) -/

/-- n ticks take n off a timer, stopping at zero. -/
theorem toNat_countDown (n : Nat) (t : Byte) : (countDown n t).toNat = t.toNat - n := by
  unfold countDown
  split
  next h => simp [h]
  next => rw [BitVec.toNat_ofNat]; exact Nat.mod_eq_of_lt (by have := t.isLt; omega)

/-! ## The fetch -/

@[simp] theorem State.fetchable_beforeStep (s : State) : s.beforeStep.fetchable = s.fetchable := rfl

@[simp] theorem State.fetchWord_beforeStep (s : State) : s.beforeStep.fetchWord = s.fetchWord := rfl

/-- The word placed at the pc is the word fetched (20_memory.md R56, R64). -/
theorem State.fetchWord_placeWord (s : State) (op : Word) : (s.placeWord s.pc.toNat op).fetchWord = op := by
  simp [State.fetchWord, Memory.writeBytes, Memory.read_write]

/-- Where withFetchWord places its word, a step can fetch: the core is not halted and the pc is at most 0xFFE. -/
theorem State.readyToFetch_spec (s : State) : s.readyToFetch.halted = false ∧ s.readyToFetch.fetchable = true := by
  have ready : ∀ p : State, p.fetchable = true →
      (if p.halted then { p with halted := false, fault := .none, faultPc := 0, faultOp := 0 } else p).halted = false ∧
      (if p.halted then { p with halted := false, fault := .none, faultPc := 0, faultOp := 0 } else p).fetchable
        = true := by
    intro p hp
    split
    · exact ⟨rfl, hp⟩
    next h => exact ⟨by simpa using h, hp⟩
  apply ready
  split
  next h => exact h
  next => rfl

/-! ## The host load (20_memory.md R70, R71) -/

/-- Everything a load that has a next state can be: the port was open, the ROM fits, memory is written and the port closed. -/
theorem State.hostLoad_cases {s t : State} {rom : List Byte} (h : s.hostLoad rom = .next t) :
    s.loadOpen = true ∧ rom.length ≤ Config.romCapacity ∧
    t = (s.writeMem (s.mem.writeBytes Config.progBase rom)).closeLoad := by
  unfold State.hostLoad at h
  split at h
  next ho =>
    split at h
    next hl => cases h; exact ⟨ho, hl, rfl⟩
    next => cases h
  next => cases h

/-- Where the port is closed there is no load. -/
theorem State.hostLoad_closed {s : State} (rom : List Byte) (h : s.loadOpen = false) :
    s.hostLoad rom = .refused .loadClosed := by
  simp [State.hostLoad, h]

/-! ## Instructions and the load port -/

theorem State.checked_loadOpen {s done t : State} {last : Nat} {op : Word} (hd : done.loadOpen = s.loadOpen)
    (h : s.checked last op done = .next t) : t.loadOpen = s.loadOpen := by
  unfold State.checked at h
  split at h <;> cases h
  · rfl
  · exact hd

/-- No instruction opens or closes the host's load port. -/
theorem exec_loadOpen {i : Instr} {s t : State} (h : exec i s = .next t) : t.loadOpen = s.loadOpen := by
  cases i <;> simp only [exec] at h
  case ret =>
    unfold execRet State.pop at h
    split at h
    next => cases h; rfl
    next hp => split at hp <;> cases hp; cases h; rfl
  case call =>
    unfold execCall State.push at h
    split at h
    next => cases h; rfl
    next hp => split at hp <;> cases hp; cases h; rfl
  case draw n =>
    cases n with
    | zero => cases h; rfl
    | succ k => unfold execDraw at h; exact State.checked_loadOpen (by rfl) h
  case waitForKeyPress =>
    unfold execWaitForKeyPress at h
    split at h <;> cases h <;> rfl
  case storeBCD => unfold execStoreBCD at h; exact State.checked_loadOpen (by rfl) h
  case storeRegisters => unfold execStoreRegisters at h; exact State.checked_loadOpen (by rfl) h
  case loadRegisters => unfold execLoadRegisters at h; exact State.checked_loadOpen (by rfl) h
  all_goals (cases h; rfl)

/-! ## The step (60_exceptions.md R220, R229) -/

/-- Everything an instruction step that has a next state can be: not halted, and then a fetch fault, a decode failure, or the
decoded instruction's own effect. -/
theorem instrStep_cases {s t : State} (h : instrStep s = .next t) :
    s.halted = false ∧
    ((s.fetchable = false ∧ t = s.raiseFault .memRange 0) ∨
     (s.fetchable = true ∧ decode s.fetchWord = none ∧ t = s.raiseFault .decodeFail s.fetchWord) ∨
     (s.fetchable = true ∧ ∃ i, decode s.fetchWord = some i ∧ exec i s = .next t)) := by
  unfold instrStep at h
  split at h
  · cases h
  next hh =>
    refine ⟨by simpa using hh, ?_⟩
    split at h
    next hf =>
      split at h
      next hd => cases h; exact .inr (.inl ⟨hf, hd, rfl⟩)
      next i hd => exact .inr (.inr ⟨hf, i, hd, h⟩)
    next hf => cases h; exact .inl ⟨by simpa using hf, rfl⟩

/-- A step at a fetchable pc that decodes runs the instruction. -/
theorem instrStep_exec {s : State} {i : Instr} (hh : s.halted = false) (hf : s.fetchable = true)
    (hd : decode s.fetchWord = some i) : instrStep s = exec i s := by
  simp [instrStep, hh, hf, hd]

/-- An instruction step neither opens nor closes the host's load port; the step event does (20_memory.md R70). -/
theorem instrStep_loadOpen {s t : State} (h : instrStep s = .next t) : t.loadOpen = s.loadOpen := by
  rcases (instrStep_cases h).2 with ⟨_, rfl⟩ | ⟨_, _, rfl⟩ | ⟨_, _, _, he⟩
  · rfl
  · rfl
  · exact exec_loadOpen he

end Sys2Proof.Machine
end

