-- ==== Sys2Proof/Laws/PerInstr.lean ====
section
/-! SUPPORT. Statements about every instruction, one lemma per constructor. TableRow: the word of an instruction carries the
fixed bits of its row of spec/opcode_table.json (30_encoding.md R82, R85). -/

namespace Sys2Proof.Laws

/-! ## The four masks of the table, as fields -/

theorem getLsbD_formatNNN (g : BitVec 4) (nnn : Addr12) (k : Nat) :
    (formatNNN g nnn).getLsbD k = if k < 12 then nnn.getLsbD k else g.getLsbD (k - 12) := by
  rw [← BitVec.getLsbD_append]; rfl

theorem getLsbD_formatXNN (g : BitVec 4) (x : Reg) (nn : Byte) (k : Nat) : (formatXNN g x nn).getLsbD k =
    if k < 8 then nn.getLsbD k else if k - 8 < 4 then (regBits x).getLsbD (k - 8) else g.getLsbD (k - 8 - 4) := by
  rw [← BitVec.getLsbD_append, ← BitVec.getLsbD_append]; rfl

theorem getLsbD_formatXYN (g : BitVec 4) (x y : Reg) (n : BitVec 4) (k : Nat) : (formatXYN g x y n).getLsbD k =
    if k < 4 then n.getLsbD k else if k - 4 < 4 then (regBits y).getLsbD (k - 4)
    else if k - 4 - 4 < 4 then (regBits x).getLsbD (k - 4 - 4) else g.getLsbD (k - 4 - 4 - 4) := by
  rw [← BitVec.getLsbD_append, ← BitVec.getLsbD_append, ← BitVec.getLsbD_append]; rfl

theorem and_F000 (op : Word) : op &&& 0xF000#16 = formatNNN (opGroup op) 0 := by
  apply BitVec.eq_of_getLsbD_eq; intro k hk
  simp only [getLsbD_formatNNN, opGroup, BitVec.getLsbD_and]
  interval_cases k <;> simp

theorem and_F00F (op : Word) : op &&& 0xF00F#16 = formatXYN (opGroup op) 0 0 (opN op) := by
  apply BitVec.eq_of_getLsbD_eq; intro k hk
  simp only [getLsbD_formatXYN, opGroup, opN, regBits, BitVec.getLsbD_and]
  interval_cases k <;> simp

theorem and_F0FF (op : Word) : op &&& 0xF0FF#16 = formatXNN (opGroup op) 0 (opNN op) := by
  apply BitVec.eq_of_getLsbD_eq; intro k hk
  simp only [getLsbD_formatXNN, opGroup, opNN, regBits, BitVec.getLsbD_and]
  interval_cases k <;> simp

/-- The word of an instruction, masked by its row's mask, is its row's match. -/
def TableRow.Statement (i : Instr) : Prop := encode i &&& (tableRow i).2 = (tableRow i).1

namespace TableRow

theorem clearDisplay : Statement .clearDisplay := rfl
theorem ret : Statement .ret := rfl
theorem jump (nnn : Addr12) : Statement (.jump nnn) := by simp [Statement, encode, tableRow, and_F000]; rfl
theorem call (nnn : Addr12) : Statement (.call nnn) := by simp [Statement, encode, tableRow, and_F000]; rfl
theorem skipIfEqualsByte (x : Reg) (nn : Byte) : Statement (.skipIfEqualsByte x nn) := by
  simp [Statement, encode, tableRow, and_F000]; rfl
theorem skipIfNotEqualsByte (x : Reg) (nn : Byte) : Statement (.skipIfNotEqualsByte x nn) := by
  simp [Statement, encode, tableRow, and_F000]; rfl
theorem skipIfEqualsRegister (x y : Reg) : Statement (.skipIfEqualsRegister x y) := by
  simp [Statement, encode, tableRow, and_F00F]; rfl
theorem loadByte (x : Reg) (nn : Byte) : Statement (.loadByte x nn) := by
  simp [Statement, encode, tableRow, and_F000]; rfl
theorem addByte (x : Reg) (nn : Byte) : Statement (.addByte x nn) := by
  simp [Statement, encode, tableRow, and_F000]; rfl
theorem move (x y : Reg) : Statement (.move x y) := by simp [Statement, encode, tableRow, and_F00F]; rfl
theorem or (x y : Reg) : Statement (.or x y) := by simp [Statement, encode, tableRow, and_F00F]; rfl
theorem and (x y : Reg) : Statement (.and x y) := by simp [Statement, encode, tableRow, and_F00F]; rfl
theorem xor (x y : Reg) : Statement (.xor x y) := by simp [Statement, encode, tableRow, and_F00F]; rfl
theorem add (x y : Reg) : Statement (.add x y) := by simp [Statement, encode, tableRow, and_F00F]; rfl
theorem sub (x y : Reg) : Statement (.sub x y) := by simp [Statement, encode, tableRow, and_F00F]; rfl
theorem shiftRight (x : Reg) : Statement (.shiftRight x) := by simp [Statement, encode, tableRow, and_F00F]; rfl
theorem subReverse (x y : Reg) : Statement (.subReverse x y) := by simp [Statement, encode, tableRow, and_F00F]; rfl
theorem shiftLeft (x : Reg) : Statement (.shiftLeft x) := by simp [Statement, encode, tableRow, and_F00F]; rfl
theorem skipIfNotEqualsRegister (x y : Reg) : Statement (.skipIfNotEqualsRegister x y) := by
  simp [Statement, encode, tableRow, and_F00F]; rfl
theorem loadIndex (nnn : Addr12) : Statement (.loadIndex nnn) := by simp [Statement, encode, tableRow, and_F000]; rfl
theorem jumpOffset (nnn : Addr12) : Statement (.jumpOffset nnn) := by simp [Statement, encode, tableRow, and_F000]; rfl
theorem random (x : Reg) (nn : Byte) : Statement (.random x nn) := by
  simp [Statement, encode, tableRow, and_F000]; rfl
theorem draw (x y : Reg) (n : Nat) : Statement (.draw x y n) := by simp [Statement, encode, tableRow, and_F000]; rfl
theorem skipIfKeyHeld (x : Reg) : Statement (.skipIfKeyHeld x) := by simp [Statement, encode, tableRow, and_F0FF]; rfl
theorem skipIfKeyNotHeld (x : Reg) : Statement (.skipIfKeyNotHeld x) := by
  simp [Statement, encode, tableRow, and_F0FF]; rfl
theorem readDelayTimer (x : Reg) : Statement (.readDelayTimer x) := by simp [Statement, encode, tableRow, and_F0FF]; rfl
theorem waitForKeyPress (x : Reg) : Statement (.waitForKeyPress x) := by
  simp [Statement, encode, tableRow, and_F0FF]; rfl
theorem setDelayTimer (x : Reg) : Statement (.setDelayTimer x) := by simp [Statement, encode, tableRow, and_F0FF]; rfl
theorem setSoundTimer (x : Reg) : Statement (.setSoundTimer x) := by simp [Statement, encode, tableRow, and_F0FF]; rfl
theorem addIndex (x : Reg) : Statement (.addIndex x) := by simp [Statement, encode, tableRow, and_F0FF]; rfl
theorem loadFontGlyph (x : Reg) : Statement (.loadFontGlyph x) := by simp [Statement, encode, tableRow, and_F0FF]; rfl
theorem storeBCD (x : Reg) : Statement (.storeBCD x) := by simp [Statement, encode, tableRow, and_F0FF]; rfl
theorem storeRegisters (x : Reg) : Statement (.storeRegisters x) := by simp [Statement, encode, tableRow, and_F0FF]; rfl
theorem loadRegisters (x : Reg) : Statement (.loadRegisters x) := by simp [Statement, encode, tableRow, and_F0FF]; rfl

end TableRow

end Sys2Proof.Laws
end

