-- ==== Sys2Proof/Tests/Slice0.lean ====
section
/-! SUPPORT. Tests whose expected results come from the spec (95_test_vectors.md, the rules' own examples, 30_encoding.md R85),
and, for each statement with hypotheses, a concrete state and operands that meet them. -/

open Sys2Proof Sys2Proof.Machine

namespace Sys2Proof.Tests

/-! ## Helpers -/

/-- The reset state changed by `f`, with the word `w` at the pc. -/
def ready (w : Nat) (f : State → State := id) : State := (f State.reset).withFetchWord 16 w

/-- Does the result have a next state that passes the check? -/
def after (r : Result) (p : State → Bool) : Bool :=
  match r with
  | .next t => p t
  | _ => false

/-- One step of the word `w` from the reset state changed by `f`. -/
def stepOf (w : Nat) (f : State → State) (p : State → Bool) : Bool := after (step (ready w f)) p

/-- The state with the listed outside answers. -/
def answering (s : State) (ticks : List Nat := [0]) (hits held : List Bool := []) (keys : List (Option Byte) := [])
    (draws : List Byte := []) : State :=
  { s with inputs := ⟨ticks, hits, held, keys, draws, 0⟩ }

/-! ## Well-formedness -/

/-- 30_encoding.md R81, R83: n is 4 bits wide. -/
theorem test_wf_refuses_16_rows : (Instr.draw 0 1 16).wellFormed = false := by decide
theorem test_wf_accepts_15_rows : (Instr.draw 0 1 15).wellFormed = true := by decide

/-! ## Decoding: words written out from 30_encoding.md R82 and R85 -/

theorem test_decode_control :
    decode 0b0000000011101110 = some .ret ∧ decode 0b0001001101001010 = some (.jump 0x34A) ∧
    decode 0b0010101010111100 = some (.call 0xABC) ∧ decode 0b1011001100000000 = some (.jumpOffset 0x300) := by decide
theorem test_decode_skips :
    decode 0b0011001100000101 = some (.skipIfEqualsByte 3 5) ∧ decode 0b0100001100000110 = some (.skipIfNotEqualsByte 3 6) ∧
    decode 0b0101000100100000 = some (.skipIfEqualsRegister 1 2) ∧
    decode 0b1001000100100000 = some (.skipIfNotEqualsRegister 1 2) ∧
    decode 0b1110010110011110 = some (.skipIfKeyHeld 5) ∧ decode 0b1110010110100001 = some (.skipIfKeyNotHeld 5) := by decide
theorem test_decode_loads_and_logic :
    decode 0b0110101001000010 = some (.loadByte 0xA 0x42) ∧ decode 0b0111001000100000 = some (.addByte 2 0x20) ∧
    decode 0b1000000000010000 = some (.move 0 1) ∧ decode 0b1000000000010001 = some (.or 0 1) ∧
    decode 0b1000000000010010 = some (.and 0 1) ∧ decode 0b1000000000010011 = some (.xor 0 1) ∧
    decode 0b1100001100001111 = some (.random 3 0x0F) := by decide
theorem test_decode_arithmetic :
    decode 0b1000000000010100 = some (.add 0 1) ∧ decode 0b1000000000010101 = some (.sub 0 1) ∧
    decode 0b1000010000000110 = some (.shiftRight 4) ∧ decode 0b1000000000010111 = some (.subReverse 0 1) ∧
    decode 0b1000010000001110 = some (.shiftLeft 4) := by decide
theorem test_decode_index_and_memory :
    decode 0b1010001100000000 = some (.loadIndex 0x300) ∧ decode 0b1111001000011110 = some (.addIndex 2) ∧
    decode 0b1111011100101001 = some (.loadFontGlyph 7) ∧ decode 0b1111000000110011 = some (.storeBCD 0) ∧
    decode 0b1111001101010101 = some (.storeRegisters 3) ∧ decode 0b1111001001100101 = some (.loadRegisters 2) := by decide
theorem test_decode_devices :
    decode 0b0000000011100000 = some .clearDisplay ∧ decode 0b1101000000010101 = some (.draw 0 1 5) ∧
    decode 0b1111001100000111 = some (.readDelayTimer 3) ∧ decode 0b1111001100001010 = some (.waitForKeyPress 3) ∧
    decode 0b1111000100010101 = some (.setDelayTimer 1) ∧ decode 0b1111001000011000 = some (.setSoundTimer 2) := by decide
/-- 95_test_vectors.md E1-E10. -/
theorem test_decode_unrecognized :
    [0x0000, 0x0123, 0x01E0, 0x5121, 0x9121, 0x8128, 0x812F, 0xE100, 0xE19F, 0xF117, 0xF000, 0xFFFF].all
      (fun w => (decode w).isNone) = true := by decide
theorem test_bytes_are_rejected_by_name :
    decodeBytes [0x01, 0xE0] = .error (.unrecognized 0x01E0) ∧ decodeBytes [0x12] = .error .truncated ∧
    decodeBytes [0x12, 0x00, 0xFF] = .ok (.jump 0x200, [0xFF]) ∧ decodeTableWord 16 0xF355 = some (.storeRegisters 3) := by
  decide

/-! ## Control transfer (95_test_vectors.md V2, D1-D12) -/

/-- D4: the 16th call succeeds. -/
theorem test_call_sixteenth :
    stepOf 0x2ABC (fun s => { s with sp := 15 }) (fun t => t.stack[15] == 0x0200 && t.sp == 16 && t.pc == 0x0ABC) = true := by
  decide
/-- D5. -/
theorem test_call_overflow :
    stepOf 0x2ABC (fun s => { s with sp := 16 }) (fun t => t.halted && t.fault == .stackOverflow && t.faultPc == 0x200 &&
      t.faultOp == 0x2ABC && t.sp == 16 && t.pc == 0x200) = true := by decide
/-- D2: the popped entry stays, stale. -/
theorem test_return_pops :
    stepOf 0x00EE (fun s => { s with sp := 2, stack := (s.stack.set 0 0x200).set 1 0x340 })
      (fun t => t.sp == 1 && t.pc == 0x0342 && t.stack[1] == 0x0340) = true := by decide
/-- D3. -/
theorem test_return_underflow :
    stepOf 0x00EE id (fun t => t.halted && t.fault.bits == 3 && t.faultOp == 0x00EE && t.pc == 0x200) = true := by decide
/-- R112's example. -/
theorem test_jump : stepOf 0x134A id (fun t => t.pc == 0x034A) = true := by decide
/-- D10: not masked. -/
theorem test_jump_offset_unmasked : stepOf 0xBFFF (fun s => s.writeV 0 0xFF) (fun t => t.pc == 0x10FE && !t.halted) = true := by
  decide
/-- D12: an odd pc. -/
theorem test_fetch_at_odd_pc : stepOf 0x1300 (fun s => s.writePc 0x201) (fun t => t.pc == 0x300) = true := by decide

/-! ## Skips (V5, S1-S13) -/

theorem test_skip_equals_byte : stepOf 0x3305 (fun s => s.writeV 3 5) (fun t => t.pc == 0x204) = true ∧
    stepOf 0x3306 (fun s => s.writeV 3 5) (fun t => t.pc == 0x202) = true := by decide
theorem test_skip_not_equals_byte : stepOf 0x4306 (fun s => s.writeV 3 5) (fun t => t.pc == 0x204) = true ∧
    stepOf 0x4305 (fun s => s.writeV 3 5) (fun t => t.pc == 0x202) = true := by decide
theorem test_skip_equals_register :
    stepOf 0x5120 (fun s => (s.writeV 1 1).writeV 2 2) (fun t => t.pc == 0x202) = true ∧
    stepOf 0x5550 id (fun t => t.pc == 0x204) = true := by decide
theorem test_skip_not_equals_register :
    stepOf 0x9120 (fun s => (s.writeV 1 1).writeV 2 2) (fun t => t.pc == 0x204) = true ∧
    stepOf 0x9550 id (fun t => t.pc == 0x202) = true := by decide
/-- S10: the key number 0x20 is passed unmodified. -/
theorem test_skip_key_held : stepOf 0xE19E (fun s => answering (s.writeV 1 0x20) (held := [true]))
    (fun t => t.pc == 0x204 && t.requests == [.isHeld 0x20]) = true := by decide
/-- S12. -/
theorem test_skip_key_not_held : stepOf 0xE5A1 (fun s => answering (s.writeV 5 0x0A) (held := [false]))
    (fun t => t.pc == 0x204) = true := by decide

/-! ## Loads and the ALU (V3, V4, A1-A28) -/

theorem test_load_byte : stepOf 0x6A42 id (fun t => t.readV 0xA == 0x42 && t.pc == 0x202) = true := by decide
/-- A2: no flag is written. -/
theorem test_add_byte_no_flag : stepOf 0x7FFF (fun s => s.writeV 15 1) (fun t => t.readV 15 == 0) = true := by decide
theorem test_move : stepOf 0x8010 (fun s => s.writeV 1 0x33) (fun t => t.readV 0 == 0x33) = true := by decide
theorem test_logic :
    stepOf 0x8011 (fun s => (s.writeV 0 0xF0).writeV 1 0x0F) (fun t => t.readV 0 == 0xFF) = true ∧
    stepOf 0x8012 (fun s => (s.writeV 0 0xF0).writeV 1 0x3C) (fun t => t.readV 0 == 0x30) = true ∧
    stepOf 0x8013 (fun s => (s.writeV 0 0xFF).writeV 1 0x0F) (fun t => t.readV 0 == 0xF0) = true := by decide
theorem test_add_carry : stepOf 0x8014 (fun s => (s.writeV 0 0xFF).writeV 1 1)
    (fun t => t.readV 0 == 0 && t.readV 15 == 1) = true := by decide
/-- A9: the result, then the flag. -/
theorem test_add_into_vf : stepOf 0x8FF4 (fun s => s.writeV 15 0x80) (fun t => t.readV 15 == 1) = true := by decide
theorem test_sub_borrow : stepOf 0x8015 (fun s => (s.writeV 0 1).writeV 1 2)
    (fun t => t.readV 0 == 0xFF && t.readV 15 == 0) = true := by decide
/-- A14. -/
theorem test_sub_into_vf : stepOf 0x8F15 (fun s => (s.writeV 15 0x10).writeV 1 0x20) (fun t => t.readV 15 == 0) = true := by
  decide
/-- A16: Vy is never read. -/
theorem test_shift_right : stepOf 0x8316 (fun s => s.writeV 3 0xFF) (fun t => t.readV 3 == 0x7F && t.readV 15 == 1) = true := by
  decide
/-- A18. -/
theorem test_shift_right_of_vf : stepOf 0x8F16 (fun s => s.writeV 15 2) (fun t => t.readV 15 == 0) = true := by decide
/-- A20. -/
theorem test_subn_borrow : stepOf 0x8127 (fun s => (s.writeV 1 0x80).writeV 2 0x7F)
    (fun t => t.readV 1 == 0xFF && t.readV 15 == 0) = true := by decide
/-- A22. -/
theorem test_shift_left : stepOf 0x831E (fun s => s.writeV 3 0xFF) (fun t => t.readV 3 == 0xFE && t.readV 15 == 1) = true := by
  decide
/-- A28. -/
theorem test_random_masked : stepOf 0xC30F (fun s => answering s (draws := [0xB7])) (fun t => t.readV 3 == 0x07) = true := by
  decide

/-! ## Index and memory (V6, V7, M1-M17) -/

theorem test_load_index : stepOf 0xABCD id (fun t => t.i == 0x0BCD && t.pc == 0x202) = true := by decide
/-- M2. -/
theorem test_add_index_wraps : stepOf 0xF01E (fun s => (s.writeV 0 1).writeI 0xFFFF) (fun t => t.i == 0) = true := by decide
/-- M6: not masked. -/
theorem test_glyph_of_255 : stepOf 0xFF29 (fun s => s.writeV 15 0xFF) (fun t => t.i == 0x04FB) = true := by decide
/-- V7. -/
theorem test_bcd_234 : stepOf 0xF033 (fun s => (s.writeV 0 234).writeI 0x300)
    (fun t => t.mem.readBytes 0x300 3 == [2, 3, 4] && t.i == 0x300) = true := by decide
/-- M10. -/
theorem test_bcd_out_of_range : stepOf 0xF033 (fun s => (s.writeV 0 9).writeI 0xFFE)
    (fun t => t.fault == .memRange && t.faultOp == 0xF033 && t.mem.readBytes 0xFFE 2 == [0, 0]) = true := by decide
/-- V6. -/
theorem test_store_registers :
    stepOf 0xF355 (fun s => ((((s.writeV 0 1).writeV 1 2).writeV 2 3).writeV 3 4).writeI 0x300)
      (fun t => t.mem.readBytes 0x300 5 == [1, 2, 3, 4, 0] && t.i == 0x304) = true := by decide
/-- M12. -/
theorem test_store_registers_out_of_range : stepOf 0xFF55 (fun s => s.writeI 0xFF1)
    (fun t => t.halted && t.fault == .memRange && t.i == 0xFF1) = true := by decide
/-- M15. -/
theorem test_load_registers : stepOf 0xF265 (fun s => (s.writeI 0x300).writeMem (s.mem.writeBytes 0x300 [9, 8, 7, 6]))
    (fun t => t.readV 0 == 9 && t.readV 1 == 8 && t.readV 2 == 7 && t.readV 3 == 0 && t.i == 0x303) = true := by decide
/-- M16. -/
theorem test_load_registers_out_of_range : stepOf 0xF065 (fun s => s.writeI 0x1000)
    (fun t => t.halted && t.fault == .memRange && t.i == 0x1000) = true := by decide

/-! ## Devices and timers (T1-T16) -/

theorem test_clear_display : stepOf 0x00E0 id (fun t => t.requests == [.clear] && t.pc == 0x202) = true := by decide
/-- T3, with the default font. -/
theorem test_draw_glyph_0 : stepOf 0xD015 (fun s => answering s (hits := [true]))
    (fun t => t.requests == [.draw 0 0 [0xF0, 0x90, 0x90, 0x90, 0xF0]] && t.readV 15 == 1) = true := by decide
/-- T7. -/
theorem test_draw_out_of_range : stepOf 0xD01F (fun s => answering (s.writeI 0xFF2) (hits := [true]))
    (fun t => t.fault == .memRange && t.requests == [] && t.readV 15 == 0) = true := by decide
theorem test_read_delay_timer : stepOf 0xF307 (fun s => answering (s.writeDt 0x3C))
    (fun t => t.readV 3 == 0x3C && t.dt == 0x3C) = true := by decide
/-- R265: ticks may come before the step. -/
theorem test_read_delay_timer_after_ticks : stepOf 0xF307 (fun s => answering (s.writeDt 0x3C) (ticks := [61]))
    (fun t => t.readV 3 == 0) = true := by decide
/-- T9. -/
theorem test_key_wait_stalls : stepOf 0xF00A (fun s => answering s (keys := [none]))
    (fun t => t.pc == 0x200 && t.readV 0 == 0 && !t.halted) = true := by decide
/-- T10. -/
theorem test_key_wait_takes_any_byte : stepOf 0xF00A (fun s => answering s (keys := [some 0x1F]))
    (fun t => t.readV 0 == 0x1F && t.pc == 0x202) = true := by decide
theorem test_set_delay_timer : stepOf 0xF115 (fun s => s.writeV 1 0x3C) (fun t => t.dt == 0x3C) = true := by decide
theorem test_set_sound_timer : stepOf 0xF218 (fun s => s.writeV 2 0x05) (fun t => t.st == 0x05) = true := by decide
/-- T14, T16: a halted core ticks. -/
theorem test_tick_while_halted :
    after (perform .tick ((State.reset.writeSt 1).raiseFault .decodeFail 0)) (fun t => t.dt == 0 && t.st == 0) = true := by
  decide

/-! ## Faults, fetch and reset (X1-X8) -/

/-- X1. -/
theorem test_fetch_fault : after (step (State.reset.writePc 0xFFF))
    (fun t => t.fault == .memRange && t.faultPc == 0xFFF && t.faultOp == 0 && t.pc == 0xFFF) = true := by decide
/-- X2: the fetch at 0xFFE is legal. -/
theorem test_fetch_at_last_word : stepOf 0x1200 (fun s => s.writePc 0xFFE) (fun t => t.pc == 0x200) = true := by decide
/-- E1: with nothing loaded, the first word is 0x0000. -/
theorem test_reset_runs_into_decode_failure : after (step State.reset)
    (fun t => t.halted && t.fault == .decodeFail && t.faultPc == 0x200 && t.faultOp == 0) = true := by decide
/-- X8. -/
theorem test_load_two_bytes : after (perform (.load [0x12, 0x00]) State.reset)
    (fun t => t.mem.readBytes 0x200 3 == [0x12, 0, 0] && t.pc == 0x200) = true := by decide
/-- R70, R71: no load after the first step, though a tick may come before it, and a reset lets the host load again. -/
theorem test_load_after_a_step_is_refused :
    performAll [.tick, .load [0x12, 0x00], .step, .load [0x00]] State.reset = .refused .loadClosed ∧
    after (performAll [.load [0x12, 0x00], .step, .reset, .load [0x34]] State.reset)
      (fun t => t.mem.readBytes 0x200 2 == [0x34, 0]) = true := ⟨rfl, by decide⟩
theorem test_reset_memory_is_canonical : State.reset.mem.Wf := by decide

/-! ## Witnesses: the hypotheses of the statements are met -/

/-- A halted state, for the clause on events in ResetPutsEveryPieceOfStateToItsValue and for HaltedCoreMakesNoStep. -/
theorem witness_halted_core : (State.reset.raiseFault .memRange 0).halted = true ∧ Event.tick ≠ .reset ∧
    ∃ u, perform .tick (State.reset.raiseFault .memRange 0) = .next u := ⟨rfl, by decide, _, rfl⟩
theorem witness_HostLoadCopiesRomOrRefusesIt : State.reset.loadOpen = true ∧ State.reset.closeLoad.loadOpen = false ∧
    (List.replicate 3584 (0xAA : Byte)).length ≤ 3584 ∧
    3584 < (List.replicate 3585 (0xAA : Byte)).length := by
  refine ⟨rfl, rfl, ?_⟩; simp only [List.length_replicate]; omega
/-- At each clause: a tick, a host's step, and a load and a step event with a run after them that a load could stand in. -/
theorem witness_HostLoadsOnlyBetweenResetAndFirstStep : (∃ t, perform .tick State.reset = .next t) ∧
    (∃ t, step (ready 0x1200) = .next t) ∧
    (∃ t u, perform (.load [0x12, 0x00]) State.reset = .next t ∧ performAll [.tick, .step] t = .next u) ∧
    (∃ t u, perform .step (ready 0x1200) = .next t ∧ performAll [.tick, .step] t = .next u) ∧
    Event.reset ∉ [Event.tick, .step] :=
  ⟨⟨_, rfl⟩, ⟨_, rfl⟩, ⟨_, _, rfl, rfl⟩, ⟨_, _, rfl, rfl⟩, by decide⟩
theorem witness_BlockWriteReadsBack : (0x300 ≤ 0x302 ∧ 0x302 < 0x300 + [1, 2, (3 : Byte)].length) ∧
    ¬ (0x300 ≤ 0x303 ∧ 0x303 < 0x300 + [1, 2, (3 : Byte)].length) := by decide
theorem witness_CanonicalMemoriesThatReadAlikeAreEqual :
    let m := State.reset.mem.writeBytes 0xFFE [7, 8]; m.Wf ∧ m.cells = [(0xFFE, 7), (0xFFF, 8)] ∧
    (m.writeBytes 0xFFE [0, 0]).cells = [] := by decide
theorem witness_DecodeOfEncodeIsTheInstruction : (Instr.draw 15 15 15).wellFormed = true ∧ (Instr.ret).wellFormed = true := by
  decide
theorem witness_EncodeOfDecodeIsTheWordButForShiftY : decode 0x8A56 = some (.shiftRight 0xA) ∧
    decode 0x8A54 = some (.add 0xA 5) := by decide
theorem witness_DecoderAgreesWithOpcodeTable : decode 0xF0FF = none ∧
    (0x8A56 : Word) &&& (tableRow (.shiftRight 3)).2 = (tableRow (.shiftRight 3)).1 := by decide
theorem witness_FetchIsBigEndian : (State.reset.writePc 0xFFE).pc.toNat ≤ 0xFFE := by decide
theorem witness_StepRunsTheDecodedInstruction : let s := ready 0x1200 (fun s => s.writePc 0xFFE)
    s.halted = false ∧ s.pc.toNat ≤ 0xFFE ∧ decode s.fetchWord = some (.jump 0x200) := by decide
theorem witness_FetchAboveMemoryFaults : State.reset.halted = false ∧ 0xFFE < (State.reset.writePc 0xFFF).pc.toNat := by decide
theorem witness_UnrecognizedWordHalts : State.reset.halted = false ∧ State.reset.pc.toNat ≤ 0xFFE ∧
    decode State.reset.fetchWord = none := by decide
theorem witness_RunningCoreAlwaysMakesAStep : State.reset.halted = false := rfl
theorem witness_FaultsArePrecise : ∃ t, instrStep State.reset = .next t ∧ t.halted = true := ⟨_, rfl, rfl⟩
/-- One step for each clause of StepFaultsExactlyAsTheTableSays and NextPcIsAsTheTableSays: a fetch fault, a decode failure, an
instruction's own fault, and none. -/
theorem witness_step_clauses : (∃ t, instrStep (State.reset.writePc 0xFFF) = .next t ∧ t.halted = true) ∧
    (∃ t, instrStep (ready 0x812F) = .next t ∧ t.halted = true) ∧
    (∃ t, instrStep (ready 0xF033 (fun s => s.writeI 0xFFE)) = .next t ∧ t.halted = true) ∧
    (∃ t, instrStep (ready 0xF033 (fun s => s.writeI 0xFFD)) = .next t ∧ t.halted = false) :=
  ⟨⟨_, rfl, rfl⟩, ⟨_, rfl, rfl⟩, ⟨_, rfl, rfl⟩, ⟨_, rfl, rfl⟩⟩
theorem witness_OnlyTheStoresWriteMemory : let s := State.reset.writeI 0x300
    (∃ t, exec (.storeBCD 0) s = .next t) ∧ ¬ Table.stores (.storeBCD 0) s 0x303 ∧ ¬ Table.stores (.storeBCD 0) s 0x2FF ∧
    ¬ Table.stores (.loadRegisters 3) s 0x300 :=
  ⟨⟨_, rfl⟩, (by decide : ¬ (0x300 ≤ 0x303 ∧ 0x303 ≤ 0x302)), (by decide : ¬ (0x300 ≤ 0x2FF ∧ 0x2FF ≤ 0x302)), not_false⟩
theorem witness_RegistersOutsideTheTableAreUnchanged : (∃ t, exec (.add 0 1) State.reset = .next t) ∧
    ¬ Table.writes (.add 0 1) 1 ∧ ¬ Table.writes (.loadRegisters 3) 4 :=
  ⟨⟨_, rfl⟩, (by decide : ¬ ((1 : Reg) = 0 ∨ (1 : Reg) = 15)), (by decide : ¬ ((4 : Reg).val ≤ (3 : Reg).val))⟩
theorem witness_IndexIsWrittenOnlyByItsInstructions : (∃ t, exec (.storeBCD 0) State.reset = .next t) ∧
    (∀ nnn, Instr.storeBCD 0 ≠ .loadIndex nnn) ∧ (∀ x, Instr.storeBCD 0 ≠ .addIndex x ∧
      Instr.storeBCD 0 ≠ .loadFontGlyph x ∧ Instr.storeBCD 0 ≠ .storeRegisters x ∧ Instr.storeBCD 0 ≠ .loadRegisters x) :=
  ⟨⟨_, rfl⟩, (fun _ h => nomatch h), (fun _ => ⟨(fun h => nomatch h), (fun h => nomatch h), (fun h => nomatch h), (fun h => nomatch h)⟩)⟩
/-- At the clauses' instructions: any other, 00EE, and a call at the last free entry. -/
theorem witness_StackIsReachedOnlyByCallAndReturn : (∃ t, exec (.jump 0x300) State.reset = .next t) ∧
    (∀ nnn, Instr.jump 0x300 ≠ .call nnn) ∧ Instr.jump 0x300 ≠ .ret ∧
    (∃ t, exec .ret ({ State.reset with sp := 1 } : State) = .next t) ∧
    (∃ t, exec (.call 0x300) ({ State.reset with sp := 15 } : State) = .next t) ∧ (14 : Fin 16).val ≠ (15 : Fin 17).val :=
  ⟨⟨_, rfl⟩, (fun _ h => nomatch h), (fun h => nomatch h), ⟨_, rfl⟩, ⟨_, rfl⟩, by decide⟩
theorem witness_TimersAreWrittenOnlyByTheirInstructions : (∃ t, exec (.setSoundTimer 0) State.reset = .next t) ∧
    (∀ x, Instr.setSoundTimer 0 ≠ .setDelayTimer x) ∧ (∃ t, exec (.setDelayTimer 0) State.reset = .next t) ∧
    (∀ x, Instr.setDelayTimer 0 ≠ .setSoundTimer x) := ⟨⟨_, rfl⟩, (fun _ h => nomatch h), ⟨_, rfl⟩, (fun _ h => nomatch h)⟩
theorem witness_StatusIsWrittenOnlyByAFault : (∃ t, exec (.storeRegisters 15) (State.reset.writeI 0xFF0) = .next t) ∧
    Table.ownFault (.storeRegisters 15) (State.reset.writeI 0xFF0) = none := ⟨⟨_, rfl⟩, by decide⟩
/-- At each clause: a query, a fault, and an instruction without an answer. -/
theorem witness_EachInstructionIssuesItsOneQuery : (∃ t, exec (.random 0 1) State.reset = .next t) ∧
    Table.ownFault (.random 0 1) State.reset = none ∧ (∃ t, exec .ret State.reset = .next t) ∧
    Table.ownFault .ret State.reset ≠ none ∧ (∃ t, exec (.move 0 1) State.reset = .next t) ∧
    Table.query (.move 0 1) State.reset = none := ⟨⟨_, rfl⟩, rfl, ⟨_, rfl⟩, by decide, ⟨_, rfl⟩, rfl⟩
/-- For EveryStepKeepsTheInvariant and EveryRunOfEventsKeepsTheInvariant: a state that has it and steps, and events that run. -/
theorem witness_invariant : ∃ s t u, Inv s ∧ step s = .next t ∧ performAll [.tick, .load [0x12], .step] s = .next u :=
  ⟨State.reset, _, _,
    ⟨Memory.wf_empty _, ⟨fun _ => ⟨rfl, rfl, rfl⟩, fun h => nomatch h⟩, fun _ h => absurd h (Nat.not_lt_zero _),
      fun _ => rfl⟩, rfl, rfl⟩
theorem witness_DelayTimerReadMayBeAnyLowerValue : let s := ready 0xF307 (fun s => s.writeDt 0x3C)
    s.halted = false ∧ s.pc.toNat ≤ 0xFFE ∧ decode s.fetchWord = some (.readDelayTimer 3) ∧ 0 ≤ s.dt.toNat ∧
    0x3C ≤ s.dt.toNat := by decide
theorem witness_CallPushesItsOwnAddress : ({ State.reset with sp := 15 } : State).sp.val < 16 ∧
    ({ State.reset with sp := 16 } : State).sp.val = 16 := by decide
theorem witness_ReturnResumesAfterTheCall : 0 < ({ State.reset with sp := 1 } : State).sp.val ∧
    State.reset.sp.val = 0 := by decide
theorem witness_CallThenReturnComesBack : let s := (ready 0x2300).placeWord 0x300 0x00EE
    s.halted = false ∧ s.pc.toNat ≤ 0xFFE ∧ decode s.fetchWord = some (.call 0x300) ∧ s.sp.val < 16 ∧
    wordOfBytes (s.mem.read 0x300) (s.mem.read 0x301) = 0x00EE := by decide
theorem witness_SelfJumpRepeatsForever : (ready 0x1200).atSelfJump := ⟨rfl, rfl, 0x200, by decide, by decide⟩
/-- Listed answers, for the clauses on them of KeySkipsFollowTheKeyboard, RandomWritesAMaskedDraw,
DrawReadsRowsAndWritesCollision and KeyWaitStallsOrStoresTheKey. -/
theorem witness_listed_answers :
    let s := answering State.reset (hits := [true]) (held := [false]) (keys := [some 3, none]) (draws := [0x5A])
    s.inputs.collisions = true :: [] ∧ s.inputs.keysHeld = false :: [] ∧ s.inputs.keyWaits = some 3 :: [none] ∧
    s.inputs.randoms = 0x5A :: [] := by decide
theorem witness_BcdStoresThreeDigits : (State.reset.writeI 0xFFD).i.toNat + 2 ≤ 0xFFF ∧
    0xFFF < (State.reset.writeI 0xFFE).i.toNat + 2 := by decide
/-- For StoreRegistersStoresTheBlock and LoadRegistersLoadsTheBlock, at x = 15 and x = 0. -/
theorem witness_register_blocks : (State.reset.writeI 0xFF0).i.toNat + (15 : Reg).val ≤ 0xFFF ∧
    0xFFF < (State.reset.writeI 0xFF1).i.toNat + (15 : Reg).val ∧ (State.reset.writeI 0xFFF).i.toNat + (0 : Reg).val ≤ 0xFFF ∧
    0xFFF < (State.reset.writeI 0x1000).i.toNat + (0 : Reg).val := by decide
theorem witness_LoadRegistersUndoesStoreRegisters : ∃ s t u : State, s.i.toNat + (15 : Reg).val ≤ 0xFFF ∧
    exec (.storeRegisters 15) s = .next t ∧ u.mem = t.mem ∧ u.i = s.i :=
  ⟨State.reset.writeI 0xFF0, _, { State.reset.writeI 0xFF0 with mem := _ }, by decide, rfl, rfl, rfl⟩
theorem witness_FetchSeesStoredBytes : ∃ s t u : State, 0 + 1 ≤ (1 : Reg).val ∧ s.i.toNat + (1 : Reg).val ≤ 0xFFF ∧
    exec (.storeRegisters 1) s = .next t ∧ u.mem = t.mem ∧ u.pc.toNat = s.i.toNat + 0 :=
  ⟨State.reset.writeI 0x208, _, { State.reset.writePc 0x208 with mem := _ }, by decide, by decide, rfl, rfl, by decide⟩
theorem witness_DrawReadsRowsAndWritesCollision : (15 < 16) ∧ (State.reset.writeI 0xFF1).i.toNat + 15 - 1 ≤ 0xFFF ∧
    0xFFF < (State.reset.writeI 0xFF2).i.toNat + 15 - 1 ∧ 0xFFF < (State.reset.writeI 0x5000).i.toNat := by decide
theorem witness_KeyWaitMayLastAnyNumberOfSteps : let s := ready 0xF00A (fun s => answering s (keys := [none, none, none]))
    s.halted = false ∧ s.pc.toNat ≤ 0xFFE ∧ decode s.fetchWord = some (.waitForKeyPress 0) ∧
    s.inputs.keyWaits = List.replicate 3 none := by decide
theorem witness_PlacedWordIsRunByTheNextStep : (Instr.draw 0 1 15).wellFormed = true ∧
    (State.reset.raiseFault .memRange 0).halted = true ∧ 0xFFE < (State.reset.writePc 0xFFF).pc.toNat := by decide

end Sys2Proof.Tests
end

section
/-! The next pc of every instruction (10_state.md R26): what an executed instruction can be, by the tables of faults and next
pcs, and from it what an instruction step does to the pc. -/

namespace Sys2Proof.Machine

/-! ## The pc as a number, modulo 65536 -/

theorem ofNat_pc_add (pc : Word) (n : Nat) : BitVec.ofNat 16 (pc.toNat + n) = pc + BitVec.ofNat 16 n := by
  simp [BitVec.ofNat_add]

theorem zextAddr_eq_ofNat (nnn : Addr12) : zextAddr nnn = BitVec.ofNat 16 nnn.toNat :=
  (BitVec.ofNat_toNat 16 nnn).symm

theorem State.pc_skipIf (s : State) (c : Bool) :
    (s.skipIf c).pc = BitVec.ofNat 16 (s.pc.toNat + if c then 4 else 2) := by
  cases c <;> exact (ofNat_pc_add s.pc _).symm

/-! ## The operations that can fault, by their two cases -/

/-- Everything a range-checked access can be: MEM_RANGE with the state otherwise kept, or what the instruction does
(20_memory.md R57). -/
theorem State.checked_cases {s done t : State} {last : Nat} {op : Word} (h : s.checked last op done = .next t) :
    (0xFFF < last ∧ t = s.raiseFault .memRange op) ∨ (last ≤ 0xFFF ∧ t = done) := by
  rcases Nat.lt_or_ge 0xFFF last with hl | hl
  · rw [State.checked_out hl] at h; cases h; exact .inl ⟨hl, rfl⟩
  · rw [State.checked_ok hl] at h; cases h; exact .inr ⟨hl, rfl⟩

/-- Everything 00EE can be: STACK_UNDERFLOW where SP = 0, else the saved address plus 2 to the pc and SP one less
(40_control_transfer.md R111). -/
theorem execRet_cases {s t : State} (h : execRet s = .next t) :
    (s.sp.val = 0 ∧ t = s.raiseFault .stackUnderflow (encode .ret)) ∨
    (s.sp.val ≠ 0 ∧ t = { s with sp := ⟨s.sp.val - 1, by omega⟩, pc := s.stack[s.sp.val - 1] + 2 }) := by
  rcases Nat.eq_zero_or_pos s.sp.val with hz | hp
  · rw [execRet, State.pop_empty (Fin.ext hz)] at h; cases h; exact .inl ⟨hz, rfl⟩
  · rw [execRet, State.pop_ok hp] at h; cases h; exact .inr ⟨hp.ne', rfl⟩

/-- Everything 2nnn can be: STACK_OVERFLOW where SP = 16, else the pc pushed and nnn to the pc
(40_control_transfer.md R113). -/
theorem execCall_cases {nnn : Addr12} {s t : State} (h : execCall nnn s = .next t) :
    (s.sp.val = 16 ∧ t = s.raiseFault .stackOverflow (encode (.call nnn))) ∨
    (∃ hlt : s.sp.val < 16, t = { s with
      stack := s.stack.set s.sp.val s.pc, sp := ⟨s.sp.val + 1, by omega⟩, pc := zextAddr nnn }) := by
  rcases Nat.lt_or_ge s.sp.val 16 with hlt | hge
  · rw [execCall, State.push_ok hlt] at h; cases h; exact .inr ⟨hlt, rfl⟩
  · have hfull : s.sp.val = 16 := by omega
    rw [execCall, State.push_full (Fin.ext hfull)] at h; cases h; exact .inl ⟨hfull, rfl⟩

/-! ## What an executed instruction can be -/

/-- The instruction faults by its own check (60_exceptions.md R223): the table's code, its own word, nothing else changed. -/
def FaultsByTable (i : Instr) (s t : State) : Prop :=
  ∃ code : FaultCode, Table.ownFault i s = some code.bits ∧ t = s.raiseFault code (encode i)

/-- The instruction completes: its own check passes, the status registers stay (10_state.md R33), and the pc is the table's
(R26). -/
def CompletesByTable (i : Instr) (s t : State) : Prop :=
  Table.ownFault i s = none ∧ SameStatus s t ∧ t.pc = BitVec.ofNat 16 (Table.nextPc i s)

/-- An instruction whose own check is the range check, and which otherwise advances the pc past itself. -/
theorem byTable_of_checked {i : Instr} {s done t : State} {last : Nat} (h : s.checked last (encode i) done = .next t)
    (hfault : Table.ownFault i s = if 0xFFF < last then some 4 else none)
    (hpc : Table.nextPc i s = s.pc.toNat + 2) (hdone : done.pc = s.pc + 2) (hstatus : SameStatus s done) :
    FaultsByTable i s t ∨ CompletesByTable i s t := by
  rcases State.checked_cases h with ⟨hl, rfl⟩ | ⟨hl, rfl⟩
  · exact .inl ⟨.memRange, by simp [hfault, hl, FaultCode.bits], rfl⟩
  · exact .inr ⟨by simp [hfault, hl], hstatus, by rw [hdone, hpc, ofNat_pc_add]; rfl⟩

/-- Every executed instruction faults by the table or completes by it. -/
theorem exec_byTable {i : Instr} {s t : State} (h : exec i s = .next t) :
    FaultsByTable i s t ∨ CompletesByTable i s t := by
  cases i
  case ret =>
    rcases execRet_cases h with ⟨hz, rfl⟩ | ⟨hp, rfl⟩
    · exact .inl ⟨.stackUnderflow, by simp [Table.ownFault, hz, FaultCode.bits], rfl⟩
    · exact .inr ⟨by simp [Table.ownFault, hp], ⟨rfl, rfl, rfl, rfl⟩, (ofNat_pc_add _ 2).symm⟩
  case call nnn =>
    rcases execCall_cases h with ⟨hfull, rfl⟩ | ⟨hlt, rfl⟩
    · exact .inl ⟨.stackOverflow, by simp [Table.ownFault, hfull, FaultCode.bits], rfl⟩
    · exact .inr ⟨by simp [Table.ownFault, hlt.ne], ⟨rfl, rfl, rfl, rfl⟩, zextAddr_eq_ofNat nnn⟩
  case draw x y n =>
    cases n with
    | zero => cases h; exact .inr ⟨by simp [Table.ownFault], ⟨rfl, rfl, rfl, rfl⟩, (ofNat_pc_add s.pc 2).symm⟩
    | succ k => exact byTable_of_checked h (by simp [Table.ownFault]) rfl rfl ⟨rfl, rfl, rfl, rfl⟩
  case storeBCD | storeRegisters | loadRegisters =>
    exact byTable_of_checked h rfl rfl (by simp) (by simp [SameStatus])
  case waitForKeyPress x =>
    simp only [exec, execWaitForKeyPress] at h
    split at h <;> cases h
    next hk => exact .inr ⟨rfl, ⟨rfl, rfl, rfl, rfl⟩, by simp [Table.nextPc, hk]⟩
    next k hk => exact .inr ⟨rfl, ⟨rfl, rfl, rfl, rfl⟩, by simp [Table.nextPc, hk, BitVec.ofNat_add]⟩
  -- No other instruction has a check of its own (R223).
  all_goals
    cases h
    refine .inr ⟨rfl, ⟨rfl, rfl, rfl, rfl⟩, ?_⟩
  case jump nnn => exact zextAddr_eq_ofNat nnn
  case jumpOffset nnn => simp [Table.nextPc, zextAddr, zextByte, BitVec.ofNat_add]
  case skipIfEqualsByte | skipIfNotEqualsByte | skipIfEqualsRegister | skipIfNotEqualsRegister | skipIfKeyHeld =>
    exact (State.pc_skipIf _ _).trans (by simp [Table.nextPc])
  case skipIfKeyNotHeld x =>
    exact (State.pc_skipIf _ _).trans (by cases hk : s.keyHeldAnswer (s.readV x) <;> simp [Table.nextPc, hk])
  all_goals exact (ofNat_pc_add s.pc 2).symm

/-- Settles O21: the fetch fault, the decode failure and an instruction's own fault halt the core and keep the pc; an
instruction that completes sets the table's. -/
theorem nextPcIsAsTheTableSays : Obligations.NextPcIsAsTheTableSays := by
  intro s t h
  obtain ⟨hrun, ⟨-, rfl⟩ | ⟨-, -, rfl⟩ | ⟨-, i, hd, he⟩⟩ := instrStep_cases h
  · simp
  · simp
  · rcases exec_byTable he with ⟨code, -, rfl⟩ | ⟨-, ⟨hhalted, -⟩, hpc⟩
    · simp
    · simp [hhalted, hrun, hd, hpc]

end Sys2Proof.Machine
end

section
/-! The fetch of an instruction word from memory (20_memory.md R56). -/

namespace Sys2Proof.Machine

/-- Where a word can be fetched, the pc does not wrap before its second byte (20_memory.md R56, 60_exceptions.md R222). -/
theorem toNat_pc_add_one {pc : Word} (h : pc.toNat ≤ 0xFFE) : (pc + 1).toNat = pc.toNat + 1 :=
  BitVec.toNat_add_of_lt (show pc.toNat + 1 < 2 ^ 16 by omega)

/-- Settles O13: the fetched word puts the byte at the pc above the byte at the next address, which at a fetchable pc is
pc +16 1. -/
theorem fetchIsBigEndian : Obligations.FetchIsBigEndian := by
  intro s hpc
  rw [State.fetchWord, toNat_wordOfBytes, toNat_pc_add_one hpc, Nat.mul_comm]

end Sys2Proof.Machine
end

section
/-! The fields of an instruction word as bit slices (30_encoding.md R81), and the words the decoder leaves unrecognized
(R86-R89): for each group with a second dispatch the values it leaves out, and from these the whole map. -/

namespace Sys2Proof.Machine

/-- Settles O7: each field is the extracted slice, read as a number; the example word is evaluated. -/
theorem fieldsAreBitSlices : Obligations.FieldsAreBitSlices :=
  ⟨fun op => ⟨val_opX op, val_opY op, toNat_opN op, toNat_opNN op, toNat_opNNN op, toNat_opGroup op⟩, by decide⟩

theorem opN_eq_zero_iff (op : Word) : opN op = 0 ↔ op.toNat % 16 = 0 := by
  rw [← toNat_opN, ← BitVec.toNat_inj]; rfl

/-- Group 8 leaves out n = 8-D and F (30_encoding.md R88). -/
theorem decodeAlu_eq_none_iff (op : Word) : decodeAlu op = none ↔ 8 ≤ op.toNat % 16 ∧ op.toNat % 16 ≠ 14 := by
  rw [← toNat_opN]
  unfold decodeAlu
  split
  case h_10 =>
    simp only [imp_false, true_iff] at *
    bv_omega
  all_goals simp [*]

/-- Group E leaves out every nn but 9E and A1 (30_encoding.md R89). -/
theorem decodeKey_eq_none_iff (op : Word) : decodeKey op = none ↔ op.toNat % 256 ≠ 0x9E ∧ op.toNat % 256 ≠ 0xA1 := by
  rw [← toNat_opNN]
  unfold decodeKey
  split
  case h_3 => simp_all [← BitVec.toNat_inj]
  all_goals simp [*]

/-- Group F leaves out every nn but its nine bytes (30_encoding.md R89). -/
theorem decodeMisc_eq_none_iff (op : Word) :
    decodeMisc op = none ↔ op.toNat % 256 ∉ [0x07, 0x0A, 0x15, 0x18, 0x1E, 0x29, 0x33, 0x55, 0x65] := by
  rw [← toNat_opNN]
  unfold decodeMisc
  split
  case h_10 => simp_all [← BitVec.toNat_inj]
  all_goals simp [*]

/-- Settles O11: the group picks the one clause of the table that can hold, and the group's second dispatch, where it has
one, leaves out what that clause lists. -/
theorem unrecognizedWordsAreExactlyTheUnlisted : Obligations.UnrecognizedWordsAreExactlyTheUnlisted := by
  intro op
  simp only [Table.unrecognized, ← toNat_opGroup]
  unfold decode
  split
  case h_1 _ hg => simp [hg, ← BitVec.toNat_inj, ite_eq_iff]
  case h_6 _ hg | h_10 _ hg => simp [hg, ← opN_eq_zero_iff]
  case h_9 _ hg => simp [hg, decodeAlu_eq_none_iff]
  case h_15 _ hg => simp [hg, decodeKey_eq_none_iff]
  case h_16 =>
    have hg : opGroup op = 0xF := by
      simp only [imp_false] at *
      bv_omega
    simp [hg, decodeMisc_eq_none_iff]
  -- Every other group decodes each of its words, and no clause is about it.
  all_goals simp [*]

end Sys2Proof.Machine
end

section
/-! Control transfer (40_control_transfer.md R111-R115): what each of the four instructions makes of a state, and from it that
a call and the return at its target come back after the call. -/

namespace Sys2Proof.Machine

/-! ## What the instructions make of a state -/

theorem zextAddr_add_zextByte (nnn : Addr12) (b : Byte) :
    zextAddr nnn + zextByte b = BitVec.ofNat 16 (nnn.toNat + b.toNat) := by
  rw [BitVec.ofNat_add, BitVec.ofNat_toNat, BitVec.ofNat_toNat]; rfl

/-- A call below SP = 16: its own address at stack[SP], SP one more, the pc at nnn (40_control_transfer.md R113). -/
theorem exec_call_of_lt {nnn : Addr12} {s : State} (h : s.sp.val < 16) : exec (.call nnn) s =
    .next { s with stack := s.stack.set s.sp.val s.pc, sp := ⟨s.sp.val + 1, by omega⟩, pc := zextAddr nnn } := by
  rw [exec, execCall, State.push_ok h]; rfl

theorem exec_call_of_full {nnn : Addr12} {s : State} (h : s.sp.val = 16) :
    exec (.call nnn) s = .next (s.raiseFault .stackOverflow (encode (.call nnn))) := by
  rw [exec, execCall, State.push_full (Fin.ext h)]

/-- A return above SP = 0: SP one less, the pc two past the saved address (40_control_transfer.md R111). -/
theorem exec_ret_of_pos {s : State} (h : 0 < s.sp.val) : exec .ret s =
    .next { s with sp := ⟨s.sp.val - 1, by omega⟩, pc := s.stack[s.sp.val - 1] + 2 } := by
  rw [exec, execRet, State.pop_ok h]; rfl

theorem exec_ret_of_empty {s : State} (h : s.sp.val = 0) :
    exec .ret s = .next (s.raiseFault .stackUnderflow (encode .ret)) := by
  rw [exec, execRet, State.pop_empty (Fin.ext h)]

theorem decode_ret : decode 0x00EE = some .ret := by decide

/-- Settles O36: each word decodes by its group, and the two addresses the meanings compute are the numbers stated. -/
theorem jumpsSetThePc : Obligations.JumpsSetThePc := by
  intro nnn s
  refine ⟨by simp [decode], by simp [decode], ?_, ?_⟩
  · rw [← zextAddr_eq_ofNat]; rfl
  · rw [← zextAddr_add_zextByte]; rfl

/-- Settles O37: the call by its two cases. -/
theorem callPushesItsOwnAddress : Obligations.CallPushesItsOwnAddress := by
  intro nnn s
  refine ⟨by simp [decode], fun h => ?_, fun h => exec_call_of_full h⟩
  rw [← zextAddr_eq_ofNat]
  exact exec_call_of_lt h

/-- Settles O38: the return by its two cases. -/
theorem returnResumesAfterTheCall : Obligations.ReturnResumesAfterTheCall :=
  fun _ => ⟨decode_ret, exec_ret_of_pos, exec_ret_of_empty⟩

/-! ## The call and its return -/

/-- A step at a fetchable pc whose word decodes runs the instruction from the state after the ticks (60_exceptions.md R220,
R237). -/
theorem step_eq_exec_beforeStep {s : State} {i : Instr} (hrun : s.halted = false) (hpc : s.pc.toNat ≤ 0xFFE)
    (hd : decode s.fetchWord = some i) : step s = exec i s.beforeStep :=
  instrStep_exec hrun (decide_eq_true hpc) hd

theorem toNat_zextAddr (nnn : Addr12) : (zextAddr nnn).toNat = nnn.toNat :=
  BitVec.toNat_setWidth_of_le (by decide)

/-- A step of 2nnn below SP = 16, at the places a return reads: the ticks before it reach none of them. -/
theorem step_call {s : State} {nnn : Addr12} (hrun : s.halted = false) (hpc : s.pc.toNat ≤ 0xFFE)
    (hd : decode s.fetchWord = some (.call nnn)) (hsp : s.sp.val < 16) :
    ∃ t, step s = .next t ∧ t.halted = false ∧ t.pc = zextAddr nnn ∧ t.mem = s.mem ∧ t.sp.val = s.sp.val + 1 ∧
      t.stack = s.stack.set s.sp.val s.pc :=
  ⟨_, (step_eq_exec_beforeStep hrun hpc hd).trans (exec_call_of_lt (s := s.beforeStep) hsp), hrun, rfl, rfl, rfl, rfl⟩

/-- A step of 00EE above SP = 0: the pc two past the saved address, SP one less, every stack entry kept. -/
theorem step_ret {s : State} (hrun : s.halted = false) (hpc : s.pc.toNat ≤ 0xFFE)
    (hd : decode s.fetchWord = some .ret) (hsp : 0 < s.sp.val) :
    ∃ t, step s = .next t ∧ t.pc = s.stack[s.sp.val - 1] + 2 ∧ t.sp.val = s.sp.val - 1 ∧ t.stack = s.stack :=
  ⟨_, (step_eq_exec_beforeStep hrun hpc hd).trans (exec_ret_of_pos (s := s.beforeStep) hsp), rfl, rfl, rfl⟩

/-- Settles O39: the call leaves its own address on top of the stack and stands at nnn; the return there pops that address,
and the entries below it were never written. -/
theorem callThenReturnComesBack : Obligations.CallThenReturnComesBack := by
  intro s nnn hrun hpc hcall hsp hnnn hword
  obtain ⟨t, hst, htrun, htpc, htmem, htsp, htstack⟩ := step_call hrun hpc hcall hsp
  have hret : decode t.fetchWord = some .ret := by
    rw [State.fetchWord, htpc, htmem, toNat_zextAddr, hword, decode_ret]
  obtain ⟨u, htu, hupc, husp, hustack⟩ := step_ret htrun (by rwa [htpc, toNat_zextAddr]) hret (by omega)
  refine ⟨t, u, hst, htu, ?_, Fin.ext (by omega), fun k hk => ?_⟩
  · simp [hupc, htstack, htsp]
  · simp [hustack, htstack, Vector.getElem_set_ne, hk.ne']

end Sys2Proof.Machine
end

section
/-! The register skips (41_skips.md R130-R134): the next state of a skip on an equality of two bytes and of one on its
negation, compared as unsigned numbers, and from these the four instructions. -/

namespace Sys2Proof.Machine

/-- A skip moves the pc and nothing else (41_skips.md R130). -/
theorem State.skipIf_eq_ofNat (s : State) (c : Bool) :
    s.skipIf c = { s with pc := BitVec.ofNat 16 (s.pc.toNat + if c then 4 else 2) } := by
  rw [← State.pc_skipIf]; rfl

theorem State.skipIf_beq (s : State) (a b : Byte) :
    s.skipIf (a == b) = { s with pc := BitVec.ofNat 16 (s.pc.toNat + if a.toNat = b.toNat then 4 else 2) } := by
  simp only [State.skipIf_eq_ofNat, beq_iff_eq, BitVec.toNat_inj]

theorem State.skipIf_bne (s : State) (a b : Byte) :
    s.skipIf (a != b) = { s with pc := BitVec.ofNat 16 (s.pc.toNat + if a.toNat = b.toNat then 2 else 4) } := by
  simp only [State.skipIf_eq_ofNat, bne_iff_ne, ite_not, BitVec.toNat_inj]

/-- Settles O41: each word decodes by its group, and each meaning is a skip on the equality of two bytes or on its negation. -/
theorem registerSkipsMoveOnlyThePc : Obligations.RegisterSkipsMoveOnlyThePc := by
  intro x y nn s
  refine ⟨by simp [decode], by simp [decode], by simp [decode], by simp [decode], ?_, ?_, ?_, ?_⟩
  · exact congrArg Host.Outcome.next (s.skipIf_beq (s.readV x) nn)
  · exact congrArg Host.Outcome.next (s.skipIf_bne (s.readV x) nn)
  · exact congrArg Host.Outcome.next (s.skipIf_beq (s.readV x) (s.readV y))
  · exact congrArg Host.Outcome.next (s.skipIf_bne (s.readV x) (s.readV y))

end Sys2Proof.Machine
end

section
/-! The loads and the ALU (42_alu.md R153-R163): the results and the flags as numbers, and from these the next state of each
instruction, which `finish` or `finishFlag` gives. -/

namespace Sys2Proof.Machine

/-! ## The results as numbers -/

theorem toNat_sum9 (a b : Byte) : (sum9 a b).toNat = a.toNat + b.toNat := by
  simp only [sum9, BitVec.toNat_add, BitVec.toNat_setWidth]; omega

theorem toNat_low_sum9 (a b : Byte) : ((sum9 a b).setWidth 8).toNat = (a.toNat + b.toNat) % 256 := by
  rw [BitVec.toNat_setWidth, toNat_sum9]

theorem toNat_difference (a b : Byte) : (a - b).toNat = (a.toNat + 256 - b.toNat) % 256 := by
  rw [BitVec.toNat_sub', Nat.add_sub_assoc (show b.toNat ≤ 256 from b.isLt.le) a.toNat]

theorem toNat_shiftLeft_one (a : Byte) : (a <<< 1).toNat = 2 * a.toNat % 256 := by
  rw [BitVec.toNat_shiftLeft, Nat.shiftLeft_eq, Nat.mul_comm]

/-! ## The flags as numbers -/

theorem toNat_flagByte (f : Bool) : (flagByte f).toNat = f.toNat := by cases f <;> rfl

theorem toNat_flagByte_decide (p : Prop) [Decidable p] : (flagByte (decide p)).toNat = if p then 1 else 0 := by
  rw [toNat_flagByte]; exact apply_ite Bool.toNat p true false

theorem toNat_flagByte_getLsbD (a : Byte) (k : Nat) : (flagByte (a.getLsbD k)).toNat = a.toNat / 2 ^ k % 2 := by
  rw [toNat_flagByte, ← BitVec.testBit_toNat, Nat.toNat_testBit]

theorem toNat_flagByte_carry (a b : Byte) :
    (flagByte (carry a b)).toNat = if 255 < a.toNat + b.toNat then 1 else 0 := by
  rw [← toNat_sum9]; exact toNat_flagByte_decide (0xFF#9 < sum9 a b)

theorem toNat_flagByte_notBorrow (a b : Byte) :
    (flagByte (notBorrow a b)).toNat = if b.toNat ≤ a.toNat then 1 else 0 :=
  toNat_flagByte_decide (b ≤ a)

theorem toNat_flagByte_lowBit (a : Byte) : (flagByte (lowBit a)).toNat = a.toNat % 2 := by
  rw [lowBit, toNat_flagByte_getLsbD, Nat.pow_zero, Nat.div_one]

/-- Bit 7 is the top bit of a byte, so the quotient by 128 has no bit above it. -/
theorem toNat_flagByte_highBit (a : Byte) : (flagByte (highBit a)).toNat = a.toNat / 128 := by
  rw [highBit, toNat_flagByte_getLsbD]; omega

/-! ## The instructions -/

/-- Settles O43: each word decodes by its group, and each meaning is `finish` with the byte stated. -/
theorem loadsMovesAndByteAddWriteVx : Obligations.LoadsMovesAndByteAddWriteVx := by
  intro x y nn s
  have hsum : BitVec.ofNat 8 (((s.readV x).toNat + nn.toNat) % 256) = s.readV x + nn := by
    apply BitVec.eq_of_toNat_eq; simp
  refine ⟨by simp [decode], by simp [decode], by simp [decode, decodeAlu], rfl, ?_, rfl⟩
  rw [hsum]; rfl

/-- Settles O44: each word decodes by its group and its n, and each meaning is `finish` with the bitwise operation. -/
theorem logicOperationsAreBitwise : Obligations.LogicOperationsAreBitwise := by
  intro x y s
  refine ⟨by simp [decode, decodeAlu], by simp [decode, decodeAlu], by simp [decode, decodeAlu], ?_, ?_, ?_⟩
  · exact ⟨_, fun _ => BitVec.getLsbD_or, rfl⟩
  · exact ⟨_, fun _ => BitVec.getLsbD_and, rfl⟩
  · exact ⟨_, fun _ => BitVec.getLsbD_xor, rfl⟩

/-- Settles O45: the meaning is `finishFlag` with the low byte and the carry of the 9-bit sum. -/
theorem addWritesSumThenCarry : Obligations.AddWritesSumThenCarry :=
  fun _ _ _ => ⟨by simp [decode, decodeAlu], _, _, toNat_low_sum9 _ _, toNat_flagByte_carry _ _, rfl⟩

/-- Settles O46: both meanings are `finishFlag` with a difference and its NOT borrow, the operands exchanged. -/
theorem subtractionsWriteDifferenceThenNotBorrow : Obligations.SubtractionsWriteDifferenceThenNotBorrow := by
  intro x y s
  refine ⟨by simp [decode, decodeAlu], by simp [decode, decodeAlu], ?_, ?_⟩
  · exact ⟨_, _, toNat_difference _ _, toNat_flagByte_notBorrow _ _, rfl⟩
  · exact ⟨_, _, toNat_difference _ _, toNat_flagByte_notBorrow _ _, rfl⟩

/-- Settles O47: the decoder's group 8 does not read y for n = 6 and n = E, and the bits shifted out are the remainder by 2
and the quotient by 128. -/
theorem shiftsWriteResultThenBitShiftedOut : Obligations.ShiftsWriteResultThenBitShiftedOut := by
  intro x y s
  refine ⟨by simp [decode, decodeAlu], by simp [decode, decodeAlu], ?_, ?_⟩
  · exact ⟨_, _, BitVec.toNat_ushiftRight _ 1, toNat_flagByte_lowBit _, rfl⟩
  · exact ⟨_, _, toNat_shiftLeft_one _, toNat_flagByte_highBit _, rfl⟩

end Sys2Proof.Machine
end

section
/-! Blocks of memory (20_memory.md R60, R61): what an address reads after a block of bytes was written, inside the block and
outside it. -/

namespace Sys2Proof.Machine

/-- An address outside a written block reads as before. -/
theorem Memory.read_writeBytes_outside {m : Memory} {a b : Nat} {ws : List Byte} (h : b < a ∨ a + ws.length ≤ b) :
    (m.writeBytes a ws).read b = m.read b := by
  induction ws generalizing m a with
  | nil => rfl
  | cons w rest ih =>
    rw [List.length_cons] at h
    rw [Memory.writeBytes, ih (by omega), Memory.read_write, if_neg (by omega)]

/-- Place k of a written block reads as the block's byte k. -/
theorem Memory.read_writeBytes_getElem (m : Memory) (a : Nat) {k : Nat} {ws : List Byte} (h : k < ws.length) :
    (m.writeBytes a ws).read (a + k) = ws[k] := by
  induction ws generalizing m a k with
  | nil => cases h
  | cons w rest ih =>
    cases k with
    | zero =>
      rw [Memory.writeBytes, Memory.read_writeBytes_outside (.inl (by omega)), Memory.read_write,
        if_pos (Nat.add_zero a).symm, List.getElem_cons_zero]
    | succ k =>
      rw [Memory.writeBytes, show a + (k + 1) = a + 1 + k by omega]
      exact ih _ _ (Nat.lt_of_succ_lt_succ h)

end Sys2Proof.Machine
end

section
/-! The index register and the memory transfers (43_index_memory.md R181-R187): the three values of I as numbers, the bytes that
Fx33 and Fx55 store, and from these the next state of each instruction by its range check. -/

namespace Sys2Proof.Machine

/-! ## The values of I as numbers, modulo 65536 -/

theorem add_zextByte_eq_ofNat (a : Word) (b : Byte) :
    a + zextByte b = BitVec.ofNat 16 ((a.toNat + b.toNat) % 65536) := by
  apply BitVec.eq_of_toNat_eq; simp [zextByte]

theorem glyphAddress_eq_ofNat (d : Byte) : glyphAddress d = BitVec.ofNat 16 (5 * d.toNat) := by
  apply BitVec.eq_of_toNat_eq; simp [glyphAddress, zextByte]

theorem State.advanceI_eq_ofNat (s : State) (x : Reg) :
    s.advanceI x = { s with i := BitVec.ofNat 16 (s.i.toNat + x.val + 1) } := by
  rw [Nat.add_assoc, ofNat_pc_add]; rfl

/-! ## The bytes stored -/

/-- No digit of a byte is larger than the byte, so none loses a bit in the byte that holds it (43_index_memory.md R185). -/
theorem toNat_ofNat_of_le_byte {b : Byte} {n : Nat} (h : n ≤ b.toNat) : (BitVec.ofNat 8 n).toNat = n :=
  (BitVec.toNat_ofNat n 8).trans (Nat.mod_eq_of_lt (h.trans_lt b.isLt))

/-- The places of a written digit block read as the hundreds, the tens and the units. -/
theorem Memory.toNat_read_writeBytes_bcdDigits (m : Memory) (a : Nat) (b : Byte) :
    ((m.writeBytes a (bcdDigits b)).read a).toNat = b.toNat / 100 ∧
    ((m.writeBytes a (bcdDigits b)).read (a + 1)).toNat = b.toNat / 10 % 10 ∧
    ((m.writeBytes a (bcdDigits b)).read (a + 2)).toNat = b.toNat % 10 := by
  have hread {k : Nat} (hk : k < 3) : (m.writeBytes a (bcdDigits b)).read (a + k) = (bcdDigits b)[k] :=
    m.read_writeBytes_getElem a hk
  refine ⟨?_, ?_, ?_⟩
  · exact (congrArg BitVec.toNat (hread (k := 0) (by decide))).trans (toNat_ofNat_of_le_byte (Nat.div_le_self _ _))
  · rw [hread (by decide)]
    exact toNat_ofNat_of_le_byte ((Nat.mod_le _ _).trans (Nat.div_le_self _ _))
  · rw [hread (by decide)]
    exact toNat_ofNat_of_le_byte (Nat.mod_le _ _)

@[simp] theorem State.length_registerBlock (s : State) (x : Reg) : (s.registerBlock x).length = x.val + 1 := by
  simp [State.registerBlock]

theorem State.getElem_registerBlock (s : State) {x r : Reg} (h : r.val < (s.registerBlock x).length) :
    (s.registerBlock x)[r.val] = s.readV r := by
  simp [State.registerBlock, State.readV]

/-! ## The instructions -/

/-- Settles O50: where the range check passes, the three digits are the block written at I. -/
theorem bcdStoresThreeDigits : Obligations.BcdStoresThreeDigits := by
  intro x s
  refine ⟨by simp [decode, decodeMisc], fun h => ⟨_, State.checked_ok h, ?_⟩, fun h => State.checked_out h⟩
  obtain ⟨hhundreds, htens, hunits⟩ := s.mem.toNat_read_writeBytes_bcdDigits s.i.toNat (s.readV x)
  exact ⟨hhundreds, htens, hunits, fun a ha => Memory.read_writeBytes_outside ha, rfl⟩

/-- Settles O51: where the range check passes, V0 ... Vx are the block written at I. -/
theorem storeRegistersStoresTheBlock : Obligations.StoreRegistersStoresTheBlock := by
  intro x s
  refine ⟨by simp [decode, decodeMisc], fun h => ⟨_, State.checked_ok h, fun r hr => ?_, fun a ha => ?_, ?_⟩,
    fun h => State.checked_out h⟩
  · have hlen : r.val < (s.registerBlock x).length := by rw [State.length_registerBlock]; omega
    exact (s.mem.read_writeBytes_getElem _ hlen).trans (s.getElem_registerBlock hlen)
  · exact Memory.read_writeBytes_outside (by rwa [State.length_registerBlock])
  · rw [State.advanceI_eq_ofNat]; rfl

/-- Settles O52: where the range check passes, the registers are those of `loadBlock` at I. -/
theorem loadRegistersLoadsTheBlock : Obligations.LoadRegistersLoadsTheBlock := by
  intro x s
  refine ⟨by simp [decode, decodeMisc], fun h => ⟨_, State.checked_ok h, s.readV_loadBlock s.i.toNat x, ?_⟩,
    fun h => State.checked_out h⟩
  rw [State.advanceI_eq_ofNat]; rfl

/-- Settles O49: each word decodes by its group, and each meaning writes I with the value stated. -/
theorem indexInstructionsComputeI : Obligations.IndexInstructionsComputeI := by
  intro x nnn s
  refine ⟨by simp [decode], by simp [decode, decodeMisc], by simp [decode, decodeMisc], ?_, ?_, ?_⟩
  · rw [← zextAddr_eq_ofNat]; rfl
  · rw [← add_zextByte_eq_ofNat]; rfl
  · rw [← glyphAddress_eq_ofNat]; rfl

end Sys2Proof.Machine
end

section
/-! The display clear and the timer transfers (44_devices_timers.md R201, R203, R205, R206): one request or one timer or register
written, then `advance`. -/

namespace Sys2Proof.Machine

/-- Settles O55: the word decodes in group 0, and the meaning is `askClear`, which writes the log alone, then `advance`. -/
theorem clearDisplayIssuesClear : Obligations.ClearDisplayIssuesClear :=
  fun _ => ⟨rfl, rfl⟩

/-- Settles O57: each word decodes by its nn in group F, and the meanings are `finish` with DT, and `writeDt` and `writeSt` with
Vx, then `advance`. -/
theorem timerInstructionsMoveATimer : Obligations.TimerInstructionsMoveATimer := by
  intro x s
  refine ⟨?_, ?_, ?_, ?_, ?_, ?_⟩
  · simp [decode, decodeMisc]
  · simp [decode, decodeMisc]
  · simp [decode, decodeMisc]
  · exact congrArg Host.Outcome.next (s.finish_eq x s.dt)
  · exact congrArg Host.Outcome.next (s.writeDt (s.readV x)).advance_eq
  · exact congrArg Host.Outcome.next (s.writeSt (s.readV x)).advance_eq

end Sys2Proof.Machine
end

section
/-! The faults of an instruction step (60_exceptions.md R220-R229): a word decoded is the word its instruction assembles to, but
for the two shifts, so an instruction's own fault records the word fetched; and from it everything an instruction step can be, by
its checks in their order. -/

namespace Sys2Proof.Machine

/-! ## The word of a decoded instruction -/

section
variable {op : Word} {g : BitVec 4}

/-- A word is put together again from its group and its nnn (30_encoding.md R81, R82). -/
theorem formatNNN_of_fields (hg : opGroup op = g) : formatNNN g (opNNN op) = op := by
  subst hg
  apply BitVec.eq_of_toNat_eq
  rw [toNat_formatNNN, toNat_opGroup, toNat_opNNN]; omega

/-- A word is put together again from its group, its x and its nn (30_encoding.md R81, R82). -/
theorem formatXNN_of_fields {nn : Byte} (hg : opGroup op = g) (hnn : opNN op = nn) : formatXNN g (opX op) nn = op := by
  subst hg hnn
  apply BitVec.eq_of_toNat_eq
  rw [toNat_formatXNN, toNat_opGroup, val_opX, toNat_opNN]; omega

/-- A word is put together again from its group, its x, its y and its n (30_encoding.md R81, R82). -/
theorem formatXYN_of_fields {n : BitVec 4} (hg : opGroup op = g) (hn : opN op = n) :
    formatXYN g (opX op) (opY op) n = op := by
  subst hg hn
  apply BitVec.eq_of_toNat_eq
  rw [toNat_formatXYN, toNat_opGroup, val_opX, val_opY, toNat_opN]; omega

end

/-- Group 8: the two shifts alone do not keep the whole word, whose y they ignore (30_encoding.md R88, R93). -/
theorem encode_of_decodeAlu {op : Word} {i : Instr} (hg : opGroup op = 0x8) (hd : decodeAlu op = some i) :
    encode i = op ∨ i = .shiftRight (opX op) ∨ i = .shiftLeft (opX op) := by
  unfold decodeAlu at hd
  split at hd <;> cases hd
  case h_7 => exact .inr (.inl rfl)
  case h_9 => exact .inr (.inr rfl)
  all_goals next hn => exact .inl (formatXYN_of_fields hg hn)

theorem encode_of_decodeKey {op : Word} {i : Instr} (hg : opGroup op = 0xE) (hd : decodeKey op = some i) :
    encode i = op := by
  unfold decodeKey at hd
  split at hd <;> cases hd
  all_goals next hnn => exact formatXNN_of_fields hg hnn

theorem encode_of_decodeMisc {op : Word} {i : Instr} (hg : opGroup op = 0xF) (hd : decodeMisc op = some i) :
    encode i = op := by
  unfold decodeMisc at hd
  split at hd <;> cases hd
  all_goals next hnn => exact formatXNN_of_fields hg hnn

/-- A decoded instruction assembles to the word it was decoded from, but for the two shifts. -/
theorem encode_of_decode {op : Word} {i : Instr} (hd : decode op = some i) :
    encode i = op ∨ i = .shiftRight (opX op) ∨ i = .shiftLeft (opX op) := by
  unfold decode at hd
  split at hd
  case h_1 =>
    split at hd
    next hop => cases hd; exact .inl hop.symm
    next =>
      split at hd <;> cases hd
      next hop => exact .inl hop.symm
  case h_6 _ hg | h_10 _ hg =>
    split at hd <;> cases hd
    next hn => exact .inl (formatXYN_of_fields hg hn)
  case h_9 _ hg => exact encode_of_decodeAlu hg hd
  case h_14 _ hg => cases hd; exact .inl (formatXYN_of_fields hg (BitVec.eq_of_toNat_eq (by simp)))
  case h_15 _ hg => exact .inl (encode_of_decodeKey hg hd)
  case h_16 =>
    have hg : opGroup op = 0xF := by
      simp only [imp_false] at *
      bv_omega
    exact .inl (encode_of_decodeMisc hg hd)
  case h_2 _ hg | h_3 _ hg | h_11 _ hg | h_12 _ hg => cases hd; exact .inl (formatNNN_of_fields hg)
  case h_4 _ hg | h_5 _ hg | h_7 _ hg | h_8 _ hg | h_13 _ hg => cases hd; exact .inl (formatXNN_of_fields hg rfl)

/-- An instruction that faults by its own check is no shift, so it assembles to the word fetched (60_exceptions.md R225). -/
theorem encode_of_ownFault {op : Word} {i : Instr} {s : State} {code : BitVec 3} (hd : decode op = some i)
    (hfault : Table.ownFault i s = some code) : encode i = op := by
  rcases encode_of_decode hd with hop | rfl | rfl
  · exact hop
  · cases hfault
  · cases hfault

/-! ## What an instruction step can be -/

/-- No instruction's own check raises the code 0, which says that no fault was taken (10_state.md R33). -/
theorem ownFault_ne_zero (i : Instr) (s : State) : Table.ownFault i s ≠ some 0 := by
  unfold Table.ownFault
  split
  case h_7 => nofun
  all_goals split <;> decide

/-- Everything an instruction step that has a next state can be, by the checks in their order (60_exceptions.md R229): a fetch
fault, a decode failure, the instruction's own fault with the table's code, or a completion that keeps the status registers. -/
theorem instrStep_byTable {s t : State} (h : instrStep s = .next t) :
    s.halted = false ∧
    ((0xFFE < s.pc.toNat ∧ t = s.raiseFault .memRange 0) ∨
     (s.pc.toNat ≤ 0xFFE ∧ decode s.fetchWord = none ∧ t = s.raiseFault .decodeFail s.fetchWord) ∨
     (s.pc.toNat ≤ 0xFFE ∧ ∃ i, decode s.fetchWord = some i ∧
       ((∃ code : FaultCode, Table.ownFault i s = some code.bits ∧ t = s.raiseFault code s.fetchWord) ∨
        (Table.ownFault i s = none ∧ SameStatus s t)))) := by
  obtain ⟨hrun, ⟨hf, ht⟩ | ⟨hf, hd, ht⟩ | ⟨hf, i, hd, he⟩⟩ := instrStep_cases h
  · exact ⟨hrun, .inl ⟨Nat.lt_of_not_le (of_decide_eq_false hf), ht⟩⟩
  · exact ⟨hrun, .inr (.inl ⟨of_decide_eq_true hf, hd, ht⟩)⟩
  · refine ⟨hrun, .inr (.inr ⟨of_decide_eq_true hf, i, hd, ?_⟩)⟩
    rcases exec_byTable he with ⟨code, hcode, ht⟩ | ⟨hnone, hstatus, -⟩
    · rw [encode_of_ownFault hd hcode] at ht
      exact .inl ⟨code, hcode, ht⟩
    · exact .inr ⟨hnone, hstatus⟩

theorem instrStep_of_decode_none {s : State} (hrun : s.halted = false) (hf : s.fetchable = true)
    (hd : decode s.fetchWord = none) : instrStep s = .next (s.raiseFault .decodeFail s.fetchWord) := by
  simp [instrStep, hrun, hf, hd]

theorem instrStep_of_halted {s : State} (h : s.halted = true) : instrStep s = .fault (.halted s.fault) := by
  simp [instrStep, h]

/-- Settles O19: each of the three faulting cases is `raiseFault`, with the word fetched or 0; a completion halts nothing. -/
theorem faultsArePrecise : Obligations.FaultsArePrecise := by
  intro s t h hhalted
  obtain ⟨hrun, ⟨hpc, rfl⟩ | ⟨hpc, -, rfl⟩ | ⟨hpc, i, -, ⟨code, hcode, rfl⟩ | ⟨-, hsame, -⟩⟩⟩ := instrStep_byTable h
  · exact ⟨nofun, by rw [if_neg hpc.not_ge]; rfl⟩
  · exact ⟨nofun, by rw [if_pos hpc]; rfl⟩
  · refine ⟨?_, by rw [if_pos hpc]; rfl⟩
    rintro (rfl : code = .none)
    exact ownFault_ne_zero i s hcode
  · rw [hsame, hrun] at hhalted; cases hhalted

/-- Settles O20: the cases of a step are the table's clauses, in the same order. -/
theorem stepFaultsExactlyAsTheTableSays : Obligations.StepFaultsExactlyAsTheTableSays := by
  intro s t h
  obtain ⟨-, ⟨hpc, rfl⟩ | ⟨hpc, hd, rfl⟩ | ⟨hpc, i, hd, ⟨code, hcode, rfl⟩ | ⟨hnone, hstatus⟩⟩⟩ := instrStep_byTable h
  · rw [if_pos hpc]; exact ⟨rfl, rfl, rfl, rfl⟩
  · rw [if_neg hpc.not_gt, hd]; exact ⟨rfl, rfl, rfl, rfl⟩
  · simp only [if_neg hpc.not_gt, hd, hcode]; exact ⟨rfl, rfl, rfl, rfl⟩
  · simpa only [if_neg hpc.not_gt, hd, hnone] using hstatus

/-- Settles O16: past the halt check and the fetch check, the decode failure is `raiseFault` with the word fetched. -/
theorem unrecognizedWordHalts : Obligations.UnrecognizedWordHalts :=
  fun _ hrun hpc hd => instrStep_of_decode_none hrun (decide_eq_true hpc) hd

end Sys2Proof.Machine
end

section
/-! The timers' tick (60_exceptions.md R236, R238): one tick is the count-down by one, halted or not. -/

namespace Sys2Proof.Machine

theorem countDown_one (t : Byte) : countDown 1 t = if t = 0 then 0 else t - 1 := by
  unfold countDown
  split
  next => rfl
  next h => bv_omega

theorem State.tick_eq_ticks_one (s : State) : s.tick = s.ticks 1 := by
  rw [State.tick, State.ticks, countDown_one, countDown_one]

theorem State.toNat_dt_tick (s : State) : s.tick.dt.toNat = s.dt.toNat - 1 := by
  rw [State.tick_eq_ticks_one]; exact toNat_countDown 1 s.dt

theorem State.toNat_st_tick (s : State) : s.tick.st.toNat = s.st.toNat - 1 := by
  rw [State.tick_eq_ticks_one]; exact toNat_countDown 1 s.st

/-- Settles O17: the ticks before a step and the closing of the load port leave HALTED as it is, and the step's first check
answers the fault; a tick does not look at HALTED. -/
theorem haltedCoreMakesNoStep : Obligations.HaltedCoreMakesNoStep := by
  intro s h
  refine ⟨fun t => ⟨?_, ?_⟩, fun ⟨hrun, _⟩ => ?_, _, rfl, h, s.toNat_dt_tick, s.toNat_st_tick⟩
  · rw [step, instrStep_of_halted (s := s.beforeStep) h]; nofun
  · rw [perform, instrStep_of_halted (s := s.closeLoad) h]; nofun
  · rw [h] at hrun; cases hrun

/-- Settles O32: a truncated subtraction of one is the stated case split on zero. -/
theorem tickDecrementsNonzeroTimers : Obligations.TickDecrementsNonzeroTimers := by
  intro s
  refine ⟨_, rfl, ?_, ?_, rfl⟩
  · rw [State.toNat_dt_tick]; split <;> omega
  · rw [State.toNat_st_tick]; split <;> omega

end Sys2Proof.Machine
end

section
/-! Reset (70_reset_and_hazards.md R260, R261): what memory reads as after it, and that no other event clears HALTED. -/

namespace Sys2Proof.Machine

/-! ## Memory with nothing listed (10_state.md R36; 20_memory.md R51) -/

section
variable (glyphs : Vector Byte Config.fontSize)

/-- Below FONT_BASE + 80 it reads as the font. -/
theorem Memory.read_empty_font (k : Fin 80) : (Memory.mk glyphs []).read k.val = glyphs[k] :=
  dif_pos ⟨Nat.zero_le k.val, k.isLt⟩

/-- Above the font it reads as zero. -/
theorem Memory.read_empty_above_font {a : Nat} (h : 80 ≤ a) : (Memory.mk glyphs []).read a = 0 :=
  dif_neg fun ⟨_, hlt⟩ => Nat.not_lt.mpr h hlt

end

/-! ## The reset event -/

theorem State.readV_resetCore (s : State) (r : Reg) : s.resetCore.readV r = 0 :=
  Vector.getElem_replicate r.isLt

theorem State.stack_resetCore (s : State) (k : Fin 16) : s.resetCore.stack[k] = 0 :=
  Vector.getElem_replicate k.isLt

/-- A halted core makes no step, and neither a tick nor a load writes HALTED (60_exceptions.md R221, R231). -/
theorem halted_of_perform {e : Event} {s u : State} (hhalted : s.halted = true) (he : e ≠ .reset)
    (h : perform e s = .next u) : u.halted = true := by
  cases e with
  | step => rw [perform, instrStep_of_halted (s := s.closeLoad) hhalted] at h; cases h
  | tick => cases h; exact hhalted
  | load rom =>
    obtain ⟨-, -, rfl⟩ := State.hostLoad_cases h
    exact hhalted
  | reset => exact absurd rfl he

/-- Settles O1: the registers are the constants of `resetWith`, memory has nothing listed, and the clause on the other events
is `halted_of_perform`. -/
theorem resetPutsEveryPieceOfStateToItsValue : Obligations.ResetPutsEveryPieceOfStateToItsValue := by
  intro s
  have hfont : ∀ k : Fin 80, s.resetCore.mem.read k.val = s.mem.glyphs[k] := Memory.read_empty_font s.mem.glyphs
  have hzero : ∀ a, 80 ≤ a → a ≤ 0xFFF → s.resetCore.mem.read a = 0 :=
    fun _ ha _ => Memory.read_empty_above_font s.mem.glyphs ha
  exact ⟨s.resetCore, rfl, s.readV_resetCore, rfl, rfl, rfl, s.stack_resetCore, rfl, rfl, rfl, rfl, rfl, rfl, hfont, hzero,
    rfl, ⟨rfl, rfl⟩, fun _ _ => halted_of_perform⟩

end Sys2Proof.Machine
end

section
/-! The encoding, in both directions (30_encoding.md R82-R93): an instruction's word decodes to it, a decoded word is the word of
its instruction but for the y a shift ignores, and the rows of the opcode table pick the same instruction as the decoder. -/

namespace Sys2Proof.Machine

/-- Settles O9: the fields of the instruction's word are its operands, and the fixed field is the one the decoder asks for. -/
theorem decodeOfEncodeIsTheInstruction : Obligations.DecodeOfEncodeIsTheInstruction := by
  intro i hwf
  cases i
  case clearDisplay | ret => decide
  case draw x y n => simp [encode, decode, Nat.mod_eq_of_lt (of_decide_eq_true hwf)]
  case move | or | and | xor | add | sub | shiftRight | subReverse | shiftLeft => simp [encode, decode, decodeAlu]
  case skipIfKeyHeld | skipIfKeyNotHeld => simp [encode, decode, decodeKey]
  case readDelayTimer | waitForKeyPress | setDelayTimer | setSoundTimer | addIndex | loadFontGlyph | storeBCD
      | storeRegisters | loadRegisters => simp [encode, decode, decodeMisc]
  all_goals simp [encode, decode]

/-! ## The rows of the opcode table -/

/-- The word of every instruction carries the fixed bits of its row (30_encoding.md R82, R85). -/
theorem encode_and_tableRow (i : Instr) : encode i &&& (tableRow i).2 = (tableRow i).1 := by
  open Laws.TableRow in
  cases i
  exacts [clearDisplay, ret, jump _, call _, skipIfEqualsByte _ _, skipIfNotEqualsByte _ _, skipIfEqualsRegister _ _,
    loadByte _ _, addByte _ _, move _ _, or _ _, and _ _, xor _ _, add _ _, sub _ _, shiftRight _, subReverse _ _,
    shiftLeft _, skipIfNotEqualsRegister _ _, loadIndex _, jumpOffset _, random _ _, draw _ _ _, skipIfKeyHeld _,
    skipIfKeyNotHeld _, readDelayTimer _, waitForKeyPress _, setDelayTimer _, setSoundTimer _, addIndex _,
    loadFontGlyph _, storeBCD _, storeRegisters _, loadRegisters _]

section
variable {op w : Word}

theorem opGroup_of_and_F000 (h : op &&& 0xF000#16 = w) : opGroup op = opGroup w := by
  rw [← h, Laws.and_F000, opGroup_formatNNN]

theorem fields_of_and_F00F (h : op &&& 0xF00F#16 = w) : opGroup op = opGroup w ∧ opN op = opN w := by
  rw [← h, Laws.and_F00F, opGroup_formatXYN, opN_formatXYN]; exact ⟨rfl, rfl⟩

theorem fields_of_and_F0FF (h : op &&& 0xF0FF#16 = w) : opGroup op = opGroup w ∧ opNN op = opNN w := by
  rw [← h, Laws.and_F0FF, opGroup_formatXNN, opNN_formatXNN]; exact ⟨rfl, rfl⟩

end

/-- A word with the fixed bits of a row decodes to an instruction of that row: they are the fields the decoder dispatches on. -/
theorem decode_of_tableRow {op : Word} {i : Instr} (h : op &&& (tableRow i).2 = (tableRow i).1) :
    ∃ j, decode op = some j ∧ tableRow j = tableRow i := by
  cases i
  case clearDisplay =>
    obtain rfl : op = 0x00E0 := BitVec.and_allOnes.symm.trans h
    exact ⟨_, rfl, rfl⟩
  case ret =>
    obtain rfl : op = 0x00EE := BitVec.and_allOnes.symm.trans h
    exact ⟨_, rfl, rfl⟩
  case skipIfEqualsRegister | skipIfNotEqualsRegister | move | or | and | xor | add | sub | shiftRight | subReverse
      | shiftLeft =>
    obtain ⟨hg, hn⟩ := fields_of_and_F00F h
    simp only [opGroup, opN, tableRow, BitVec.reduceExtractLsb'] at hg hn
    simp [decode, decodeAlu, opGroup, opN, hg, hn, tableRow]
  case skipIfKeyHeld | skipIfKeyNotHeld | readDelayTimer | waitForKeyPress | setDelayTimer | setSoundTimer | addIndex
      | loadFontGlyph | storeBCD | storeRegisters | loadRegisters =>
    obtain ⟨hg, hnn⟩ := fields_of_and_F0FF h
    simp only [opGroup, opNN, tableRow, BitVec.reduceExtractLsb'] at hg hnn
    simp [decode, decodeKey, decodeMisc, opGroup, opNN, hg, hnn, tableRow]
  all_goals
    have hg := opGroup_of_and_F000 h
    simp only [opGroup, tableRow, BitVec.reduceExtractLsb'] at hg
    simp [decode, opGroup, hg, tableRow]

/-! ## What is decoded -/

/-- A word decodes only to instructions of its own group (30_encoding.md R84). -/
theorem opGroup_of_decode {op : Word} {i : Instr} (hd : decode op = some i) : opGroup op = opGroup (tableRow i).1 := by
  unfold decode at hd
  split at hd
  case h_1 _ hg =>
    split at hd
    next => cases hd; simpa [tableRow, opGroup] using hg
    next => split at hd <;> cases hd; simpa [tableRow, opGroup] using hg
  case h_6 _ hg | h_10 _ hg => split at hd <;> cases hd; simpa [tableRow, opGroup] using hg
  case h_9 _ hg => unfold decodeAlu at hd; split at hd <;> cases hd <;> simpa [tableRow, opGroup] using hg
  case h_15 _ hg => unfold decodeKey at hd; split at hd <;> cases hd <;> simpa [tableRow, opGroup] using hg
  case h_16 =>
    have hg : opGroup op = 0xF := by
      simp only [imp_false] at *
      bv_omega
    unfold decodeMisc at hd
    split at hd <;> cases hd <;> simpa [tableRow, opGroup] using hg
  all_goals next hg => cases hd; simpa [tableRow, opGroup] using hg

theorem wellFormed_of_decode {op : Word} {i : Instr} (hd : decode op = some i) : i.wellFormed = true := by
  cases i
  case draw x y n =>
    have hg : opGroup op = 0xD#4 := (opGroup_of_decode hd).trans (by simp [tableRow, opGroup])
    simp only [decode, hg, Option.some.injEq, Instr.draw.injEq] at hd
    obtain ⟨-, -, rfl⟩ := hd
    exact decide_eq_true (opN op).isLt
  all_goals rfl

/-- Group 8 decodes only to the instruction whose row has the word's n (30_encoding.md R88). -/
theorem opN_of_decode_group8 {op : Word} {i : Instr} (hd : decode op = some i) (hg : opGroup op = 0x8#4) :
    opN op = opN (tableRow i).1 := by
  simp only [decode, hg, decodeAlu] at hd
  split at hd <;> cases hd
  all_goals next hn => simpa [tableRow, opN] using hn

theorem fields_of_decode_shiftRight {op : Word} {x : Reg} (hd : decode op = some (.shiftRight x)) :
    opGroup op = 0x8#4 ∧ opN op = 0x6#4 := by
  have hg : opGroup op = 0x8#4 := (opGroup_of_decode hd).trans (by simp [tableRow, opGroup])
  exact ⟨hg, (opN_of_decode_group8 hd hg).trans (by simp [tableRow, opN])⟩

theorem fields_of_decode_shiftLeft {op : Word} {x : Reg} (hd : decode op = some (.shiftLeft x)) :
    opGroup op = 0x8#4 ∧ opN op = 0xE#4 := by
  have hg : opGroup op = 0x8#4 := (opGroup_of_decode hd).trans (by simp [tableRow, opGroup])
  exact ⟨hg, (opN_of_decode_group8 hd hg).trans (by simp [tableRow, opN])⟩

/-- The mask 0xFF0F clears y and keeps the group, x and n. -/
theorem and_FF0F (op : Word) : op &&& 0xFF0F#16 = formatXYN (opGroup op) (opX op) 0 (opN op) := by
  have hx (k : Nat) : (regBits (opX op)).getLsbD k = (op.extractLsb' 8 4).getLsbD k := rfl
  apply BitVec.eq_of_getLsbD_eq; intro k hk
  simp only [Laws.getLsbD_formatXYN, hx, opGroup, opN, BitVec.getLsbD_and]
  interval_cases k <;> simp [regBits]

/-- Settles O10: only a shift assembles to another word than the one decoded, the same with y = 0. -/
theorem encodeOfDecodeIsTheWordButForShiftY : Obligations.EncodeOfDecodeIsTheWordButForShiftY := by
  intro op i hd
  refine ⟨wellFormed_of_decode hd, ?_⟩
  rcases encode_of_decode hd with hop | rfl | rfl
  · exact .inl hop
  · obtain ⟨hg, hn⟩ := fields_of_decode_shiftRight hd
    exact .inr ⟨.inl rfl, ((and_FF0F op).trans (by rw [hg, hn]; rfl)).symm⟩
  · obtain ⟨hg, hn⟩ := fields_of_decode_shiftLeft hd
    exact .inr ⟨.inr rfl, ((and_FF0F op).trans (by rw [hg, hn]; rfl)).symm⟩

/-- Settles O12: a decoded word is the word of its instruction, which is in its row, but for the shifts, whose row fixes only
the group and n; the other direction is `decode_of_tableRow`. -/
theorem decoderAgreesWithOpcodeTable : Obligations.DecoderAgreesWithOpcodeTable := by
  refine ⟨fun op i hd => ?_, fun op i => decode_of_tableRow⟩
  rcases encode_of_decode hd with rfl | rfl | rfl
  · exact encode_and_tableRow i
  · obtain ⟨hg, hn⟩ := fields_of_decode_shiftRight hd
    exact (Laws.and_F00F op).trans (by rw [hg, hn]; rfl)
  · obtain ⟨hg, hn⟩ := fields_of_decode_shiftLeft hd
    exact (Laws.and_F00F op).trans (by rw [hg, hn]; rfl)

/-- Settles O8: the words are literals, each decoded by evaluation. -/
theorem specWordsDecode : Obligations.SpecWordsDecode := by
  unfold Obligations.SpecWordsDecode
  decide

end Sys2Proof.Machine
end

section
/-! What the instructions leave unchanged (10_state.md R20-R33; 20_memory.md R53; 44_devices_timers.md R200). An instruction
faults by its own check, which writes the status registers alone, or it completes by its rule: the rules stand here once, and each
frame is a case split over them. -/

namespace Sys2Proof.Machine

/-! ## The completion of an instruction -/

/-- The next state of an instruction whose own check passes, one rule per instruction and two for the key wait. -/
inductive Completes (s : State) : Instr → State → Prop
  | clearDisplay : Completes s .clearDisplay s.askClear.advance
  | ret (hpos : 0 < s.sp.val) :
      Completes s .ret { s with sp := ⟨s.sp.val - 1, by omega⟩, pc := s.stack[s.sp.val - 1] + 2 }
  | jump (nnn) : Completes s (.jump nnn) (s.writePc (zextAddr nnn))
  | call (nnn) (hlt : s.sp.val < 16) : Completes s (.call nnn)
      { s with stack := s.stack.set s.sp.val s.pc, sp := ⟨s.sp.val + 1, by omega⟩, pc := zextAddr nnn }
  | skipIfEqualsByte (x nn) : Completes s (.skipIfEqualsByte x nn) (s.skipIf (s.readV x == nn))
  | skipIfNotEqualsByte (x nn) : Completes s (.skipIfNotEqualsByte x nn) (s.skipIf (s.readV x != nn))
  | skipIfEqualsRegister (x y) : Completes s (.skipIfEqualsRegister x y) (s.skipIf (s.readV x == s.readV y))
  | loadByte (x nn) : Completes s (.loadByte x nn) (s.finish x nn)
  | addByte (x nn) : Completes s (.addByte x nn) (s.finish x (s.readV x + nn))
  | move (x y) : Completes s (.move x y) (s.finish x (s.readV y))
  | or (x y) : Completes s (.or x y) (s.finish x (s.readV x ||| s.readV y))
  | and (x y) : Completes s (.and x y) (s.finish x (s.readV x &&& s.readV y))
  | xor (x y) : Completes s (.xor x y) (s.finish x (s.readV x ^^^ s.readV y))
  | add (x y) : Completes s (.add x y)
      (s.finishFlag x ((sum9 (s.readV x) (s.readV y)).setWidth 8) (carry (s.readV x) (s.readV y)))
  | sub (x y) : Completes s (.sub x y)
      (s.finishFlag x (s.readV x - s.readV y) (notBorrow (s.readV x) (s.readV y)))
  | shiftRight (x) : Completes s (.shiftRight x) (s.finishFlag x (s.readV x >>> 1) (lowBit (s.readV x)))
  | subReverse (x y) : Completes s (.subReverse x y)
      (s.finishFlag x (s.readV y - s.readV x) (notBorrow (s.readV y) (s.readV x)))
  | shiftLeft (x) : Completes s (.shiftLeft x) (s.finishFlag x (s.readV x <<< 1) (highBit (s.readV x)))
  | skipIfNotEqualsRegister (x y) : Completes s (.skipIfNotEqualsRegister x y) (s.skipIf (s.readV x != s.readV y))
  | loadIndex (nnn) : Completes s (.loadIndex nnn) (s.writeI (zextAddr nnn)).advance
  | jumpOffset (nnn) : Completes s (.jumpOffset nnn) (s.writePc (zextAddr nnn + zextByte (s.readV V0)))
  | random (x nn) : Completes s (.random x nn) (s.askRandom.finish x (s.randomAnswer &&& nn))
  | draw (x y n) : Completes s (.draw x y n) (s.drawRows x y n)
  | skipIfKeyHeld (x) : Completes s (.skipIfKeyHeld x)
      ((s.askKeyHeld (s.readV x)).skipIf (s.keyHeldAnswer (s.readV x)))
  | skipIfKeyNotHeld (x) : Completes s (.skipIfKeyNotHeld x)
      ((s.askKeyHeld (s.readV x)).skipIf (!s.keyHeldAnswer (s.readV x)))
  | readDelayTimer (x) : Completes s (.readDelayTimer x) (s.finish x s.dt)
  | keyWaitStalls (x) (hkey : s.keyWaitAnswer = none) : Completes s (.waitForKeyPress x) s.askKeyWait
  | keyWaitStores (x k) (hkey : s.keyWaitAnswer = some k) : Completes s (.waitForKeyPress x) (s.askKeyWait.finish x k)
  | setDelayTimer (x) : Completes s (.setDelayTimer x) (s.writeDt (s.readV x)).advance
  | setSoundTimer (x) : Completes s (.setSoundTimer x) (s.writeSt (s.readV x)).advance
  | addIndex (x) : Completes s (.addIndex x) (s.writeI (s.i + zextByte (s.readV x))).advance
  | loadFontGlyph (x) : Completes s (.loadFontGlyph x) (s.writeI (glyphAddress (s.readV x))).advance
  | storeBCD (x) (hlast : s.i.toNat + 2 ≤ 0xFFF) : Completes s (.storeBCD x)
      (s.writeMem (s.mem.writeBytes s.i.toNat (bcdDigits (s.readV x)))).advance
  | storeRegisters (x) (hlast : s.i.toNat + x.val ≤ 0xFFF) : Completes s (.storeRegisters x)
      ((s.writeMem (s.mem.writeBytes s.i.toNat (s.registerBlock x))).advanceI x).advance
  | loadRegisters (x) (hlast : s.i.toNat + x.val ≤ 0xFFF) : Completes s (.loadRegisters x)
      ((s.loadBlock s.i.toNat x).advanceI x).advance

/-- Everything an executed instruction can be: a fault by its own check, or its completion. -/
theorem exec_cases {i : Instr} {s t : State} (h : exec i s = .next t) :
    FaultsByTable i s t ∨ (Table.ownFault i s = none ∧ Completes s i t) := by
  rcases exec_byTable h with hfault | ⟨hnone, -⟩
  · exact .inl hfault
  refine .inr ⟨hnone, ?_⟩
  cases i
  case ret =>
    rcases execRet_cases h with ⟨hz, -⟩ | ⟨hp, rfl⟩
    · simp [Table.ownFault, hz] at hnone
    · exact .ret (Nat.pos_of_ne_zero hp)
  case call nnn =>
    rcases execCall_cases h with ⟨hfull, -⟩ | ⟨hlt, rfl⟩
    · simp [Table.ownFault, hfull] at hnone
    · exact .call nnn hlt
  case draw x y n =>
    cases n with
    | zero => cases h; exact .draw x y 0
    | succ k =>
      rcases State.checked_cases h with ⟨hl, -⟩ | ⟨-, rfl⟩
      · simp [Table.ownFault, hl] at hnone
      · exact .draw x y (k + 1)
  case waitForKeyPress x =>
    simp only [exec, execWaitForKeyPress] at h
    split at h <;> cases h
    next hk => exact .keyWaitStalls x hk
    next k hk => exact .keyWaitStores x k hk
  case storeBCD x | storeRegisters x | loadRegisters x =>
    rcases State.checked_cases h with ⟨hl, -⟩ | ⟨hl, rfl⟩
    · simp [Table.ownFault, hl] at hnone
    · constructor; exact hl
  all_goals cases h; constructor

theorem State.checked_total (s : State) (last : Nat) (op : Word) (done : State) :
    ∃ t, s.checked last op done = .next t := by
  rcases Nat.lt_or_ge 0xFFF last with hl | hl
  · exact ⟨_, State.checked_out hl⟩
  · exact ⟨_, State.checked_ok hl⟩

/-- Every instruction has a next state (60_exceptions.md R233). -/
theorem exec_total (i : Instr) (s : State) : ∃ t, exec i s = .next t := by
  cases i
  case ret =>
    rcases Nat.eq_zero_or_pos s.sp.val with hz | hp
    · exact ⟨_, exec_ret_of_empty hz⟩
    · exact ⟨_, exec_ret_of_pos hp⟩
  case call nnn =>
    rcases Nat.lt_or_ge s.sp.val 16 with hlt | hge
    · exact ⟨_, exec_call_of_lt hlt⟩
    · exact ⟨_, exec_call_of_full (by omega)⟩
  case draw x y n =>
    cases n with
    | zero => exact ⟨_, rfl⟩
    | succ k => exact s.checked_total _ _ _
  case waitForKeyPress x =>
    simp only [exec, execWaitForKeyPress]
    split
    · exact ⟨_, rfl⟩
    · exact ⟨_, rfl⟩
  case storeBCD | storeRegisters | loadRegisters => exact s.checked_total _ _ _
  all_goals exact ⟨_, rfl⟩

/-! ## The frame of each field -/

section
variable {i : Instr} {s t : State} (h : exec i s = .next t)
include h

/-- An instruction leaves memory as it is, or writes one block at I, inside memory, to addresses the table lists
(20_memory.md R53, R57). -/
theorem exec_mem_cases : t.mem = s.mem ∨ ∃ ws : List Byte, t.mem = s.mem.writeBytes s.i.toNat ws ∧
    s.i.toNat + ws.length ≤ Config.memSize ∧
    ∀ a, s.i.toNat ≤ a → a < s.i.toNat + ws.length → Table.stores i s a := by
  rcases exec_cases h with ⟨code, -, rfl⟩ | ⟨-, hc⟩
  · exact .inl rfl
  cases hc
  case storeBCD x hlast =>
    exact .inr ⟨bcdDigits (s.readV x), rfl, Nat.succ_le_succ hlast, fun a hlo hhi => ⟨hlo, Nat.le_of_lt_succ hhi⟩⟩
  case storeRegisters x hlast =>
    refine .inr ⟨s.registerBlock x, rfl, ?_, ?_⟩ <;> rw [State.length_registerBlock]
    · exact Nat.succ_le_succ hlast
    · exact fun a hlo hhi => ⟨hlo, Nat.le_of_lt_succ hhi⟩
  all_goals left; rfl

theorem exec_read {a : Nat} (ha : ¬ Table.stores i s a) : t.mem.read a = s.mem.read a := by
  obtain hsame | ⟨ws, hws, -, hstores⟩ := exec_mem_cases h
  · rw [hsame]
  · rw [hws]
    refine Memory.read_writeBytes_outside ?_
    by_contra hin
    exact ha (hstores a (by omega) (by omega))

theorem exec_glyphs : t.mem.glyphs = s.mem.glyphs := by
  obtain hsame | ⟨ws, hws, -, -⟩ := exec_mem_cases h
  · rw [hsame]
  · rw [hws, Memory.writeBytes_glyphs]

theorem exec_readV {r : Reg} (hr : ¬ Table.writes i r) : t.readV r = s.readV r := by
  rcases exec_cases h with ⟨code, -, rfl⟩ | ⟨-, hc⟩
  · rfl
  cases hc
  case add | sub | subReverse | shiftRight | shiftLeft =>
    obtain ⟨hx, hflag⟩ := not_or.mp hr
    rw [State.finishFlag_eq, State.advance_eq, State.readV_writePc, State.readV_writeV_ne _ _ (Ne.symm hflag),
      State.readV_writeV_ne _ _ (Ne.symm hx)]
  case loadByte | readDelayTimer | addByte | move | or | and | xor =>
    rw [State.finish_eq, State.advance_eq, State.readV_writePc, State.readV_writeV_ne _ _ (Ne.symm hr)]
  case keyWaitStores | random =>
    rw [State.finish_eq, State.advance_eq, State.readV_writePc, State.readV_writeV_ne _ _ (Ne.symm hr)]
    exact State.readV_congr rfl r
  case draw =>
    rw [State.drawRows, State.advance_eq, State.readV_writePc, State.readV_writeV_ne _ _ (Ne.symm hr)]
    exact State.readV_congr rfl r
  case loadRegisters x _ =>
    rw [State.advance_eq, State.advanceI_eq, State.readV_writePc, State.readV_writeI, State.readV_loadBlock]
    exact if_neg hr
  all_goals exact State.readV_congr rfl r

theorem exec_index (hnnn : ∀ nnn, i ≠ .loadIndex nnn)
    (hx : ∀ x, i ≠ .addIndex x ∧ i ≠ .loadFontGlyph x ∧ i ≠ .storeRegisters x ∧ i ≠ .loadRegisters x) : t.i = s.i := by
  rcases exec_cases h with ⟨code, -, rfl⟩ | ⟨-, hc⟩
  · rfl
  cases hc
  case loadIndex nnn => exact absurd rfl (hnnn nnn)
  case addIndex x | loadFontGlyph x | storeRegisters x _ | loadRegisters x _ =>
    obtain ⟨hadd, hglyph, hstore, hload⟩ := hx x
    contradiction
  all_goals rfl

/-- An instruction leaves the call stack as it is, or pushes its own address, or drops the top entry (10_state.md R31). -/
theorem exec_stack_cases : SameStack s t ∨
    (∃ nnn, ∃ hlt : s.sp.val < 16, i = .call nnn ∧ t.stack = s.stack.set s.sp.val s.pc ∧ t.sp.val = s.sp.val + 1) ∨
    (i = .ret ∧ t.stack = s.stack ∧ t.sp.val = s.sp.val - 1) := by
  rcases exec_cases h with ⟨code, -, rfl⟩ | ⟨-, hc⟩
  · exact .inl ⟨rfl, rfl⟩
  cases hc
  case call nnn hlt => exact .inr (.inl ⟨nnn, hlt, rfl, rfl, rfl⟩)
  case ret => exact .inr (.inr ⟨rfl, rfl, rfl⟩)
  all_goals left; constructor <;> rfl

theorem exec_dt (hset : ∀ x, i ≠ .setDelayTimer x) : t.dt = s.dt := by
  rcases exec_cases h with ⟨code, -, rfl⟩ | ⟨-, hc⟩
  · rfl
  cases hc
  case setDelayTimer x => exact absurd rfl (hset x)
  all_goals rfl

theorem exec_st (hset : ∀ x, i ≠ .setSoundTimer x) : t.st = s.st := by
  rcases exec_cases h with ⟨code, -, rfl⟩ | ⟨-, hc⟩
  · rfl
  cases hc
  case setSoundTimer x => exact absurd rfl (hset x)
  all_goals rfl

end

/-! ## A running core always makes a step (60_exceptions.md R220-R222) -/

theorem instrStep_of_not_fetchable {s : State} (hrun : s.halted = false) (hf : s.fetchable = false) :
    instrStep s = .next (s.raiseFault .memRange 0) := by
  simp [instrStep, hrun, hf]

/-- A core that is not halted makes an instruction step (60_exceptions.md R220). -/
theorem instrStep_total {s : State} (hrun : s.halted = false) : ∃ t, instrStep s = .next t := by
  cases hf : s.fetchable with
  | false => exact ⟨_, instrStep_of_not_fetchable hrun hf⟩
  | true =>
    cases hd : decode s.fetchWord with
    | none => exact ⟨_, instrStep_of_decode_none hrun hf hd⟩
    | some i => simpa only [instrStep_exec hrun hf hd] using exec_total i s

/-- Settles O18: the ticks before a step leave HALTED as it is, and the instruction step makes its checks in turn. -/
theorem runningCoreAlwaysMakesAStep : Obligations.RunningCoreAlwaysMakesAStep :=
  ⟨fun s hrun => instrStep_total (s := s.beforeStep) hrun,
    fun s hhalted => instrStep_of_halted (s := s.beforeStep) hhalted, exec_total⟩

/-- Settles O15: past the halt check, the fetch check is `raiseFault` with no word. -/
theorem fetchAboveMemoryFaults : Obligations.FetchAboveMemoryFaults :=
  fun _ hrun hpc => instrStep_of_not_fetchable hrun (decide_eq_false hpc.not_ge)

/-! ## The frames as stated -/

/-- Settles O22: what an instruction writes to memory is one block at the addresses the table lists. -/
theorem onlyTheStoresWriteMemory : Obligations.OnlyTheStoresWriteMemory :=
  fun _ _ _ h => ⟨fun _ => exec_read h, exec_glyphs h⟩

/-- Settles O23: each rule writes the registers of its row, and a fault none. -/
theorem registersOutsideTheTableAreUnchanged : Obligations.RegistersOutsideTheTableAreUnchanged :=
  fun _ _ _ h _ => exec_readV h

/-- Settles O24: the five rules that write I are the excluded ones. -/
theorem indexIsWrittenOnlyByItsInstructions : Obligations.IndexIsWrittenOnlyByItsInstructions :=
  fun _ _ _ h => exec_index h

/-- Settles O25: of the two that reach the stack, the return writes no entry and the call none but stack[SP]. -/
theorem stackIsReachedOnlyByCallAndReturn : Obligations.StackIsReachedOnlyByCallAndReturn := by
  intro i s t h
  rcases exec_stack_cases h with hsame | ⟨nnn, hlt, rfl, hstack, -⟩ | ⟨rfl, hstack, -⟩
  · exact ⟨fun _ _ => hsame, fun _ => hsame.1, fun k _ => by rw [hsame.1]⟩
  · refine ⟨fun hcall => absurd rfl (hcall nnn), nofun, fun k hk => ?_⟩
    rw [hstack]
    exact Vector.getElem_set_ne hlt k.isLt hk.symm
  · exact ⟨fun _ hret => absurd rfl hret, fun _ => hstack, fun k _ => by rw [hstack]⟩

/-- Settles O26: one rule writes each timer. -/
theorem timersAreWrittenOnlyByTheirInstructions : Obligations.TimersAreWrittenOnlyByTheirInstructions :=
  fun _ _ _ h => ⟨exec_dt h, exec_st h⟩

/-- Settles O27: where the own check passes the instruction completes by the table, which keeps the status registers. -/
theorem statusIsWrittenOnlyByAFault : Obligations.StatusIsWrittenOnlyByAFault := by
  intro i s t h hnone
  rcases exec_byTable h with ⟨code, hcode, -⟩ | ⟨-, hstatus, -⟩
  · rw [hnone] at hcode; cases hcode
  · exact hstatus

/-- Settles O28: a fault writes neither the log nor the answers, and each rule issues the query of the table. -/
theorem eachInstructionIssuesItsOneQuery : Obligations.EachInstructionIssuesItsOneQuery := by
  intro i s t h
  rcases exec_cases h with ⟨code, hcode, rfl⟩ | ⟨hnone, hc⟩
  · refine ⟨fun hnone => ?_, fun _ => ⟨rfl, rfl⟩, fun hnone => ?_⟩
    · rw [hnone] at hcode; cases hcode
    · rw [hnone] at hcode; cases hcode
  · refine ⟨fun _ => ?_, fun hfault => absurd hnone hfault, fun _ hq => ?_⟩
    · cases hc <;> rfl
    · cases hc
      case skipIfKeyHeld | skipIfKeyNotHeld | keyWaitStalls | keyWaitStores | draw | random =>
        simp [Table.query] at hq
      all_goals rfl

end Sys2Proof.Machine
end

section
/-! The invariant of the machine: each of its parts over one instruction step, then over the four atomic events, and from these
over the host's step and over any list of events. -/

namespace Sys2Proof.Machine

/-! ## Over an instruction step -/

section
variable {i : Instr} {s t : State}

theorem wf_of_exec (hmem : s.mem.Wf) (h : exec i s = .next t) : t.mem.Wf := by
  obtain hsame | ⟨ws, hws, hlast, -⟩ := exec_mem_cases h
  · rwa [hsame]
  · rw [hws]; exact Memory.wf_writeBytes hmem hlast

/-- A call saves the address it was fetched from, and a return only drops an entry (40_control_transfer.md R111). -/
theorem savedAddressesFetchable_of_exec (hsaved : SavedAddressesFetchable s) (hpc : s.pc.toNat ≤ 0xFFE)
    (h : exec i s = .next t) : SavedAddressesFetchable t := by
  intro k hk
  rcases exec_stack_cases h with ⟨hstack, hsp⟩ | ⟨nnn, hlt, -, hstack, hsp⟩ | ⟨-, hstack, hsp⟩
  · rw [hsp] at hk
    rw [hstack]; exact hsaved k hk
  · rcases Nat.lt_succ_iff_lt_or_eq.mp (hsp ▸ hk) with hk | hk
    · simpa [hstack, Vector.getElem_set_ne, hk.ne'] using hsaved k hk
    · simpa [hstack, hk] using hpc
  · rw [hstack]; exact hsaved k (by omega)

/-- A fault records its cause and the pc; a completion leaves the registers of a running core as they were. -/
theorem statusCoherent_of_instrStep (hstatus : StatusCoherent s) (h : instrStep s = .next t) : StatusCoherent t := by
  obtain ⟨hrun, ⟨-, rfl⟩ | ⟨-, -, rfl⟩ | ⟨-, i, -, ⟨code, hcode, rfl⟩ | ⟨-, hh, hf, hpc, hop⟩⟩⟩ := instrStep_byTable h
  · exact ⟨nofun, fun _ => ⟨nofun, rfl⟩⟩
  · exact ⟨nofun, fun _ => ⟨nofun, rfl⟩⟩
  · refine ⟨nofun, fun _ => ⟨?_, rfl⟩⟩
    rintro (rfl : code = .none)
    exact ownFault_ne_zero i s hcode
  · refine ⟨fun _ => ?_, fun hhalted => ?_⟩
    · rw [hf, hpc, hop]; exact hstatus.1 hrun
    · rw [hh, hrun] at hhalted; cases hhalted

theorem inv_of_instrStep (hs : Inv s) (hclosed : s.loadOpen = false) (h : instrStep s = .next t) : Inv t := by
  obtain ⟨hmem, hstatus, hsaved, -⟩ := hs
  have hport : LoadsOntoReset t := by
    intro hopen
    rw [instrStep_loadOpen h, hclosed] at hopen; cases hopen
  obtain ⟨-, ⟨-, rfl⟩ | ⟨-, -, rfl⟩ | ⟨hf, i, -, he⟩⟩ := instrStep_cases h
  · exact ⟨hmem, statusCoherent_of_instrStep hstatus h, hsaved, hport⟩
  · exact ⟨hmem, statusCoherent_of_instrStep hstatus h, hsaved, hport⟩
  · exact ⟨wf_of_exec hmem he, statusCoherent_of_instrStep hstatus h,
      savedAddressesFetchable_of_exec hsaved (of_decide_eq_true hf) he, hport⟩

end

/-! ## Over the events -/

theorem inv_closeLoad {s : State} (hs : Inv s) : Inv s.closeLoad := by
  obtain ⟨hmem, hstatus, hsaved, -⟩ := hs
  exact ⟨hmem, hstatus, hsaved, nofun⟩

theorem inv_beforeStep {s : State} (hs : Inv s) : Inv s.beforeStep := by
  obtain ⟨hmem, hstatus, hsaved, -⟩ := hs
  exact ⟨hmem, hstatus, hsaved, nofun⟩

/-- While the host may load, both timers are zero, so a tick changes nothing. -/
theorem inv_tick {s : State} (hs : Inv s) : Inv s.tick := by
  obtain ⟨hmem, hstatus, hsaved, hport⟩ := hs
  refine ⟨hmem, hstatus, hsaved, fun hopen => ?_⟩
  calc s.tick.resetCore = s.resetCore.tick := rfl
    _ = s.tick := by rw [hport hopen]

theorem inv_hostLoad {s t : State} {rom : List Byte} (hs : Inv s) (h : s.hostLoad rom = .next t) : Inv t := by
  obtain ⟨hmem, hstatus, hsaved, -⟩ := hs
  obtain ⟨-, hlen, rfl⟩ := State.hostLoad_cases h
  have hrange : Config.progBase + rom.length ≤ Config.memSize := Nat.add_le_of_le_sub' (by decide) hlen
  exact ⟨Memory.wf_writeBytes hmem hrange, hstatus, hsaved, nofun⟩

theorem inv_resetCore (s : State) : Inv s.resetCore :=
  ⟨Memory.wf_empty s.mem.glyphs, ⟨fun _ => ⟨rfl, rfl, rfl⟩, nofun⟩, nofun, fun _ => rfl⟩

theorem inv_of_perform {e : Event} {s t : State} (hs : Inv s) (h : perform e s = .next t) : Inv t := by
  cases e with
  | step => exact inv_of_instrStep (inv_closeLoad hs) rfl h
  | tick => cases h; exact inv_tick hs
  | load rom => exact inv_hostLoad hs h
  | reset => cases h; exact inv_resetCore s

theorem performAll_cons_of_next {e : Event} {es : List Event} {s t : State} (h : perform e s = .next t) :
    performAll (e :: es) s = performAll es t := by
  simp only [performAll, h]

/-- A run of events that goes to its end goes through a state after its first event. -/
theorem performAll_cons_cases {e : Event} {es : List Event} {s u : State} (h : performAll (e :: es) s = .next u) :
    ∃ t, perform e s = .next t ∧ performAll es t = .next u := by
  cases he : perform e s with
  | next t => exact ⟨t, rfl, by rwa [performAll_cons_of_next he] at h⟩
  | fault f => simp [performAll, he] at h
  | refused r => simp [performAll, he] at h

/-! ## The statements -/

/-- Settles O29: the reset state is its own reset. -/
theorem invariantHoldsAtReset : Obligations.InvariantHoldsAtReset := inv_resetCore State.reset

/-- Settles O30: the ticks before the step keep the invariant, and the instruction step after them each of its parts. -/
theorem everyStepKeepsTheInvariant : Obligations.EveryStepKeepsTheInvariant :=
  fun _ _ hs h => inv_of_instrStep (inv_beforeStep hs) rfl h

/-- Settles O31: by induction on the events. -/
theorem everyRunOfEventsKeepsTheInvariant : Obligations.EveryRunOfEventsKeepsTheInvariant := by
  intro es
  induction es with
  | nil => intro s t hs h; cases h; exact hs
  | cons e es ih =>
    intro s u hs h
    obtain ⟨t, he, hes⟩ := performAll_cons_cases h
    exact ih t u (inv_of_perform hs he) hes

end Sys2Proof.Machine
end

section
/-! Memory as its reads (20_memory.md R50-R61): a block written is read back, a canonical memory is determined by what its
addresses read as, and the reset memory holds the default font. -/

namespace Sys2Proof.Machine

/-- Settles O5: inside the block by the place of the address in it, outside by the frame of the block. -/
theorem blockWriteReadsBack : Obligations.BlockWriteReadsBack := by
  intro m a b ws
  split
  next h =>
    have hread := m.read_writeBytes_getElem a (show b - a < ws.length by omega)
    rwa [Nat.add_sub_cancel' h.1] at hread
  next h => exact Memory.read_writeBytes_outside (by omega)

/-! ## The canonical form (log entry 8) -/

/-- At rising addresses a cell is found by its address. -/
theorem lookupCell_eq_some_iff_mem {cs : List Host.Cell} (hrise : cs.Pairwise fun c d => c.1 < d.1) {a : Nat} {w : Byte} :
    lookupCell a cs = some w ↔ (a, w) ∈ cs := by
  induction cs with
  | nil => simp [lookupCell]
  | cons c rest ih =>
    obtain ⟨b, u⟩ := c
    obtain ⟨hhead, hrest⟩ := List.pairwise_cons.mp hrise
    rw [lookupCell, List.mem_cons, Prod.mk.injEq]
    split
    next hba =>
      have hnotin : (a, w) ∉ rest := fun hin => (hhead _ hin).ne hba
      simp [hba, hnotin, eq_comm]
    next hba => simp [ih hrest, Ne.symm hba]

/-- The cells of a canonical memory are what its addresses read as where that is not their unlisted byte. -/
theorem Memory.mem_cells_iff {m : Memory} (hm : m.Wf) {a : Nat} {w : Byte} :
    (a, w) ∈ m.cells ↔ m.read a = w ∧ w ≠ m.unlisted a := by
  obtain ⟨hrise, hcell⟩ := hm
  constructor
  · intro hin
    have hfound := (lookupCell_eq_some_iff_mem hrise).mpr hin
    exact ⟨by rw [Memory.read, hfound, Option.getD_some], (hcell _ hin).2⟩
  · rintro ⟨rfl, hlisted⟩
    rw [← lookupCell_eq_some_iff_mem hrise]
    cases hlookup : lookupCell a m.cells with
    | none => exact absurd (by rw [Memory.read, hlookup, Option.getD_none]) hlisted
    | some w => rw [Memory.read, hlookup, Option.getD_some]

/-- Settles O6: the two lists have the same cells, by what the addresses read as, and both are in rising order. -/
theorem canonicalMemoriesThatReadAlikeAreEqual : Obligations.CanonicalMemoriesThatReadAlikeAreEqual := by
  intro m n hm hn hglyphs hread
  have hmem : ∀ c, c ∈ m.cells ↔ c ∈ n.cells := fun c => by
    rw [Memory.mem_cells_iff hm, Memory.mem_cells_iff hn, hread, Memory.unlisted_congr hglyphs]
  have hcells : m.cells = n.cells := by
    have hnodup {cs : List Host.Cell} (h : cs.Pairwise fun c d => c.1 < d.1) : cs.Nodup :=
      h.imp fun hlt heq => hlt.ne (congrArg Prod.fst heq)
    have hperm := (List.perm_ext_iff_of_nodup (hnodup hm.1) (hnodup hn.1)).mpr hmem
    exact hperm.eq_of_pairwise (fun _ _ _ _ hab hba => absurd hab hba.asymm) hm.1 hn.1
  cases m; cases n
  cases hglyphs; cases hcells
  rfl

/-! ## The reset memory -/

/-- The font stands at the bottom of memory with nothing listed. -/
theorem Memory.readBytes_empty_font (glyphs : Vector Byte Config.fontSize) :
    (Memory.mk glyphs []).readBytes 0 80 = glyphs.toList := by
  refine List.ext_getElem (by simp) fun k hk hk' => ?_
  rw [Memory.getElem_readBytes, Nat.zero_add, Vector.getElem_toList]
  exact Memory.read_empty_font glyphs ⟨k, by simpa using hk⟩

/-- Settles O2: memory has nothing listed, so it reads as the default table and then as zero. -/
theorem initialStateHoldsDefaultFont : Obligations.InitialStateHoldsDefaultFont := by
  refine ⟨rfl, rfl, rfl, rfl, State.readV_resetCore State.reset, ?_, fun a ha _ => Memory.read_empty_above_font _ ha⟩
  exact (Memory.readBytes_empty_font Config.defaultGlyphs).trans (by decide)

end Sys2Proof.Machine
end

section
/-! The host's load (20_memory.md R70, R71): what it does where the port is open, and that the port, once closed, stays closed
until a reset. -/

namespace Sys2Proof.Machine

theorem State.hostLoad_of_fits {s : State} {rom : List Byte} (hopen : s.loadOpen = true)
    (hlen : rom.length ≤ Config.romCapacity) :
    s.hostLoad rom = .next (s.writeMem (s.mem.writeBytes Config.progBase rom)).closeLoad := by
  simp [State.hostLoad, hopen, hlen]

theorem State.hostLoad_of_too_long {s : State} {rom : List Byte} (hopen : s.loadOpen = true)
    (hlen : Config.romCapacity < rom.length) : s.hostLoad rom = .refused .romTooLong := by
  simp [State.hostLoad, hopen, hlen]

/-- Settles O3: a load that fits is a block written at 0x200 and the port closed. -/
theorem hostLoadCopiesRomOrRefusesIt : Obligations.HostLoadCopiesRomOrRefusesIt := by
  intro s rom
  refine ⟨fun hopen hlen => ⟨_, State.hostLoad_of_fits hopen hlen, fun k hk => ?_, fun a ha => ?_, rfl⟩,
    State.hostLoad_of_too_long, State.hostLoad_closed rom⟩
  · exact s.mem.read_writeBytes_getElem 0x200 hk
  · refine Memory.read_writeBytes_outside (show a < 0x200 ∨ 0x200 + rom.length ≤ a from ?_)
    by_contra hin
    exact ha (a - 0x200) (by omega) (by omega)

/-! ## The port once closed -/

/-- A step or a load leaves the port closed. -/
theorem loadOpen_of_step_or_load {e : Event} {s t : State} (he : e = .step ∨ ∃ rom, e = .load rom)
    (h : perform e s = .next t) : t.loadOpen = false := by
  rcases he with rfl | ⟨rom, rfl⟩
  · exact instrStep_loadOpen h
  · obtain ⟨-, -, rfl⟩ := State.hostLoad_cases h
    rfl

/-- From a closed port no event but a reset opens it, and none is a load. -/
theorem perform_of_closed {e : Event} {s t : State} (hclosed : s.loadOpen = false) (hreset : e ≠ .reset)
    (h : perform e s = .next t) : t.loadOpen = false ∧ ∀ rom, e ≠ .load rom := by
  cases e with
  | step => exact ⟨instrStep_loadOpen h, nofun⟩
  | tick => cases h; exact ⟨hclosed, nofun⟩
  | load rom => rw [perform, State.hostLoad_closed rom hclosed] at h; cases h
  | reset => exact absurd rfl hreset

theorem no_load_of_performAll {es : List Event} {s u : State} (hclosed : s.loadOpen = false) (hreset : .reset ∉ es)
    (h : performAll es s = .next u) (rom : List Byte) : .load rom ∉ es := by
  induction es generalizing s with
  | nil => exact List.not_mem_nil
  | cons e es ih =>
    obtain ⟨hne, hreset⟩ := not_or.mp (mt List.mem_cons.mpr hreset)
    obtain ⟨t, he, hes⟩ := performAll_cons_cases h
    obtain ⟨hclosed, hload⟩ := perform_of_closed hclosed (Ne.symm hne) he
    exact mt List.mem_cons.mp (not_or.mpr ⟨(hload rom).symm, ih hclosed hreset hes⟩)

/-- Settles O4: reset opens the port, and after a step or a load a run without a reset goes from closed port to closed port. -/
theorem hostLoadsOnlyBetweenResetAndFirstStep : Obligations.HostLoadsOnlyBetweenResetAndFirstStep := by
  refine ⟨fun s => ⟨s.resetCore, rfl, rfl⟩, fun s t h => ?_, fun s t h => instrStep_loadOpen h, ?_⟩
  · cases h; rfl
  · intro e es s t u he hfirst hreset h
    exact no_load_of_performAll (loadOpen_of_step_or_load he hfirst) hreset h

end Sys2Proof.Machine
end

section
/-! The instructions that ask a collaborator (60_exceptions.md R241-R244): the answer is the first listed one where one is listed,
and each meaning is its query followed by what it writes. -/

namespace Sys2Proof.Machine

/-! ## The answers -/

section
variable {s : State}

theorem State.keyHeldAnswer_of_listed (k : Byte) {b : Bool} {rest : List Bool} (h : s.inputs.keysHeld = b :: rest) :
    s.keyHeldAnswer k = b := by
  rw [State.keyHeldAnswer, h, List.headD_cons]

theorem State.keyWaitAnswer_of_listed {b : Option Byte} {rest : List (Option Byte)} (h : s.inputs.keyWaits = b :: rest) :
    s.keyWaitAnswer = b := by
  rw [State.keyWaitAnswer, h, List.headD_cons]

theorem State.randomAnswer_of_listed {b : Byte} {rest : List Byte} (h : s.inputs.randoms = b :: rest) :
    s.randomAnswer = b := by
  rw [State.randomAnswer, h, List.headD_cons]

theorem State.collisionAnswer_of_listed (x y : Byte) (rows : List Byte) {b : Bool} {rest : List Bool}
    (h : s.inputs.collisions = b :: rest) : s.collisionAnswer x y rows = b := by
  rw [State.collisionAnswer, h, List.headD_cons]

end

/-! ## The key skips, the random draw and the key wait -/

theorem State.skipIf_eq_add (s : State) (c : Bool) : s.skipIf c = { s with pc := s.pc + if c then 4 else 2 } := by
  cases c <;> rfl

theorem State.skipIf_not_eq_add (s : State) (c : Bool) : s.skipIf (!c) = { s with pc := s.pc + if c then 2 else 4 } := by
  cases c <;> rfl

/-- Settles O42: both meanings are one query and a skip, on the answer or on its negation. -/
theorem keySkipsFollowTheKeyboard : Obligations.KeySkipsFollowTheKeyboard := by
  intro x s
  refine ⟨by simp [decode, decodeKey], by simp [decode, decodeKey],
    ⟨_, fun _ _ => State.keyHeldAnswer_of_listed (s.readV x), ?_⟩,
    ⟨_, fun _ _ => State.keyHeldAnswer_of_listed (s.readV x), ?_⟩⟩
  · exact congrArg Host.Outcome.next (State.skipIf_eq_add _ _)
  · exact congrArg Host.Outcome.next (State.skipIf_not_eq_add _ _)

/-- Settles O48: the meaning is one draw and `finish` with the drawn byte masked. -/
theorem randomWritesAMaskedDraw : Obligations.RandomWritesAMaskedDraw :=
  fun _ _ _ => ⟨by simp [decode], _, fun _ _ => State.randomAnswer_of_listed, rfl⟩

/-- Settles O58: the meaning is one query and, by its answer, nothing more or `finish` with the key. -/
theorem keyWaitStallsOrStoresTheKey : Obligations.KeyWaitStallsOrStoresTheKey := by
  intro x s
  refine ⟨by simp [decode, decodeMisc], s.keyWaitAnswer, s.askKeyWait, fun _ _ => State.keyWaitAnswer_of_listed, rfl, ?_⟩
  simp only [exec, execWaitForKeyPress]
  cases s.keyWaitAnswer with
  | none => rfl
  | some k => rfl

/-! ## The draw -/

section
variable (x y : Reg) {n : Nat} {s : State}

theorem exec_draw_of_fits (h : n = 0 ∨ s.i.toNat + n - 1 ≤ 0xFFF) : exec (.draw x y n) s = .next (s.drawRows x y n) := by
  cases n with
  | zero => rfl
  | succ k => exact State.checked_ok (show s.i.toNat + k ≤ 0xFFF by omega)

theorem exec_draw_of_out (hn : 1 ≤ n) (h : 0xFFF < s.i.toNat + n - 1) :
    exec (.draw x y n) s = .next (s.raiseFault .memRange (encode (.draw x y n))) := by
  cases n with
  | zero => cases hn
  | succ k => exact State.checked_out h

end

/-- Settles O56: where the rows fit, the meaning is `drawRows` with the n bytes read at I; else it is the range fault. -/
theorem drawReadsRowsAndWritesCollision : Obligations.DrawReadsRowsAndWritesCollision := by
  intro x y n s hn
  refine ⟨decodeOfEncodeIsTheInstruction (.draw x y n) (decide_eq_true hn), fun hfits => ?_, exec_draw_of_out x y⟩
  exact ⟨s.mem.readBytes s.i.toNat n, _, Memory.length_readBytes _ _ _, Memory.getElem_readBytes _ _ _,
    fun _ _ => State.collisionAnswer_of_listed (s.readV x) (s.readV y) _, exec_draw_of_fits x y hfits⟩

end Sys2Proof.Machine
end

section
/-! Stored bytes seen again: by Fx65 (43_index_memory.md R187), by the fetch (20_memory.md R64), and the word the host places by the
next step (log entry 10). -/

namespace Sys2Proof.Machine

/-- After Fx55, the byte at I + r is Vr (43_index_memory.md R186). -/
theorem read_of_storeRegisters {x r : Reg} {s t : State} (hlast : s.i.toNat + x.val ≤ 0xFFF)
    (h : exec (.storeRegisters x) s = .next t) (hr : r.val ≤ x.val) : t.mem.read (s.i.toNat + r.val) = s.readV r := by
  obtain ⟨t', ht', hread, -⟩ := (storeRegistersStoresTheBlock x s).2.1 hlast
  obtain rfl : t = t' := Host.Outcome.next.inj (h.symm.trans ht')
  exact hread r hr

/-- Settles O53: Fx65 loads V0 to Vx from the bytes that Fx55 left at the same I, and no other register. -/
theorem loadRegistersUndoesStoreRegisters : Obligations.LoadRegistersUndoesStoreRegisters := by
  intro x s t u hlast hstore hmem hi
  obtain ⟨w, hw, hv, -⟩ := (loadRegistersLoadsTheBlock x u).2.1 (by rwa [hi])
  refine ⟨w, hw, fun r hr => ?_, fun r hr => ?_⟩
  · rw [hv, if_pos hr, hmem, hi, read_of_storeRegisters hlast hstore hr]
  · rw [hv, if_neg hr.not_ge]

/-- Settles O54: both bytes of the word are bytes of the block stored. -/
theorem fetchSeesStoredBytes : Obligations.FetchSeesStoredBytes := by
  intro x s t u k hk hlast hstore hmem hpc
  have hread {j : Nat} (hj : j ≤ x.val) : u.mem.read (s.i.toNat + j) = s.v[j]'(by omega) := by
    rw [hmem]
    exact read_of_storeRegisters (r := ⟨j, by omega⟩) hlast hstore hj
  rw [State.fetchWord, hpc, Nat.add_assoc, hread (by omega), hread hk]

theorem tableWord_toNat (op : Word) : tableWord 16 op.toNat = op := by
  rw [tableWord, Nat.mod_eq_of_lt op.isLt, BitVec.ofNat_toNat, BitVec.setWidth_eq]

/-- Where a step can fetch, it runs the instruction whose word is placed at the pc. -/
theorem step_placeWord {s : State} {i : Instr} (hrun : s.halted = false) (hf : s.fetchable = true)
    (hwf : i.wellFormed = true) : step (s.placeWord s.pc.toNat (encode i)) =
      exec i (s.placeWord s.pc.toNat (encode i)).beforeStep := by
  refine instrStep_exec ?_ ?_ ?_
  · rwa [State.beforeStep_halted, State.placeWord_halted]
  · rwa [State.fetchable, State.beforeStep_pc, State.placeWord_pc]
  · rw [State.fetchWord_beforeStep, State.fetchWord_placeWord, decodeOfEncodeIsTheInstruction i hwf]

/-- Settles O60: `withFetchWord` places the instruction's word at the pc of a state where a step can fetch. -/
theorem placedWordIsRunByTheNextStep : Obligations.PlacedWordIsRunByTheNextStep := by
  intro s i hwf
  obtain ⟨hrun, hf⟩ := s.readyToFetch_spec
  rw [State.withFetchWord, tableWord_toNat]
  exact step_placeWord hrun hf hwf

end Sys2Proof.Machine
end

section
/-! Ticks and the host's step (60_exceptions.md R236, R237): ticks in a row add up, the host's step is the due ticks and then one
instruction step, and what Fx07, a key wait and a jump to itself make of that. -/

namespace Sys2Proof.Machine

/-! ## Ticks in a row -/

theorem countDown_countDown (m n : Nat) (t : Byte) : countDown n (countDown m t) = countDown (n + m) t := by
  apply BitVec.eq_of_toNat_eq
  simp only [toNat_countDown]
  omega

theorem countDown_zero (t : Byte) : countDown 0 t = t :=
  BitVec.eq_of_toNat_eq (toNat_countDown 0 t)

theorem State.ticks_zero (s : State) : s.ticks 0 = s := by
  rw [State.ticks, countDown_zero, countDown_zero]

theorem State.ticks_tick (s : State) (n : Nat) : s.tick.ticks n = s.ticks (n + 1) := by
  rw [State.tick_eq_ticks_one]
  simp only [State.ticks, countDown_countDown]

/-- n tick events before other events are n ticks of both timers. -/
theorem performAll_replicate_tick (n : Nat) (es : List Event) (s : State) :
    performAll (List.replicate n .tick ++ es) s = performAll es (s.ticks n) := by
  induction n generalizing s with
  | zero => rw [State.ticks_zero]; rfl
  | succ n ih =>
    rw [List.replicate_succ, List.cons_append, performAll_cons_of_next rfl, ih, State.ticks_tick]

theorem performAll_singleton (e : Event) (s : State) : performAll [e] s = perform e s := by
  rw [performAll]
  cases perform e s <;> rfl

/-- Settles O33: the due tick events are the count-down of `beforeStep`, and the step event closes the load port as it does. -/
theorem stepIsTickEventsThenAStepEvent : Obligations.StepIsTickEventsThenAStepEvent := by
  intro s
  rw [performAll_replicate_tick, performAll_singleton]
  rfl

/-- Settles O34: n tick events count both timers down by n. -/
theorem manyTicksStopAtZero : Obligations.ManyTicksStopAtZero := by
  intro n s
  refine ⟨s.ticks n, ?_, toNat_countDown n s.dt, toNat_countDown n s.st, rfl⟩
  simpa [performAll] using performAll_replicate_tick n [] s

/-! ## The host's step at one instruction -/

/-- Settles O14: `beforeStep` counts down the timers, uses up the scheduler's order and closes the load port. -/
theorem stepRunsTheDecodedInstruction : Obligations.StepRunsTheDecodedInstruction :=
  fun _ _ hrun hpc hd =>
    ⟨step_eq_exec_beforeStep hrun hpc hd, toNat_countDown _ _, toNat_countDown _ _, rfl⟩

/-- Fx07 reads DT after the ticks due before its step. -/
theorem step_readDelayTimer {s : State} {x : Reg} (hrun : s.halted = false) (hpc : s.pc.toNat ≤ 0xFFE)
    (hd : decode s.fetchWord = some (.readDelayTimer x)) :
    ∃ t, step s = .next t ∧ (t.readV x).toNat = s.dt.toNat - s.ticksDue := by
  refine ⟨_, step_eq_exec_beforeStep hrun hpc hd, ?_⟩
  calc _ = (countDown s.ticksDue s.dt).toNat := congrArg BitVec.toNat (State.readV_writeV_self _ x _)
    _ = s.dt.toNat - s.ticksDue := toNat_countDown _ _

/-- Settles O35: with DT - d ticks listed before the step, DT is d when Fx07 reads it. -/
theorem delayTimerReadMayBeAnyLowerValue : Obligations.DelayTimerReadMayBeAnyLowerValue := by
  intro s x d hrun hpc hd hle
  obtain ⟨t, hst, ht⟩ := step_readDelayTimer
    (s := { s with inputs := { s.inputs with ticks := (s.dt.toNat - d) :: s.inputs.ticks } }) hrun hpc hd
  exact ⟨s.dt.toNat - d, t, hst, ht.trans (Nat.sub_sub_self hle)⟩

/-- Settles O40: the jump writes the pc it already has, so the next state is the one after the ticks. -/
theorem selfJumpRepeatsForever : Obligations.SelfJumpRepeatsForever := by
  rintro s ⟨hrun, hf, nnn, hd, hpc⟩
  have hstay : s.beforeStep.writePc (zextAddr nnn) = s.beforeStep := by rw [hpc]; rfl
  refine ⟨s.beforeStep, ?_, ⟨hrun, hf, nnn, hd, hpc⟩, rfl⟩
  calc step s = exec (.jump nnn) s.beforeStep := instrStep_exec (s := s.beforeStep) hrun hf hd
    _ = .next s.beforeStep := congrArg Host.Outcome.next hstay

/-! ## The key wait (70_reset_and_hazards.md R266) -/

theorem step_key_wait_stalls {s : State} {x : Reg} {rest : List (Option Byte)} (hrun : s.halted = false)
    (hpc : s.pc.toNat ≤ 0xFFE) (hd : decode s.fetchWord = some (.waitForKeyPress x))
    (hkeys : s.inputs.keyWaits = none :: rest) : step s = .next s.beforeStep.askKeyWait := by
  have hanswer : s.beforeStep.keyWaitAnswer = none :=
    State.keyWaitAnswer_of_listed (s := s.beforeStep) hkeys
  rw [step_eq_exec_beforeStep hrun hpc hd, exec, execWaitForKeyPress, hanswer]

theorem core_run_succ {n : Nat} {s t : State} (h : step s = .next t) :
    Host.Core.run Sys2Proof.core (n + 1) s = Host.Core.run Sys2Proof.core n t := by
  have hcore : Host.Core.step Sys2Proof.core s = .next t := h
  simp only [Host.Core.run, hcore]

/-- Settles O59: by induction on the polls; each leaves the state about to run the same Fx0A with one answer fewer. -/
theorem keyWaitMayLastAnyNumberOfSteps : Obligations.KeyWaitMayLastAnyNumberOfSteps := by
  intro n
  induction n with
  | zero =>
    intro s x _ _ _ hkeys
    refine ⟨s, rfl, ?_⟩
    have hport : (s.loadOpen && decide (0 = 0)) = s.loadOpen := Bool.and_true _
    rw [List.replicate_zero] at hkeys
    rw [hport, ← hkeys]
    rfl
  | succ n ih =>
    intro s x hrun hpc hd hkeys
    rw [List.replicate_succ] at hkeys
    have hnext : s.beforeStep.askKeyWait.inputs.keyWaits = List.replicate n none := by simp [hkeys]
    obtain ⟨t, hrest, ht⟩ := ih s.beforeStep.askKeyWait x hrun hpc hd hnext
    have hdrawn : s.inputs.drawn + 1 + 1 + 2 * n = s.inputs.drawn + 2 * (n + 1) := by omega
    refine ⟨t, (core_run_succ (step_key_wait_stalls hrun hpc hd hkeys)).trans hrest, ht.trans ?_⟩
    -- The run names the state by the host's interface; as a `State` its fields reduce.
    change @Eq State _ _
    simp [List.replicate_succ', hdrawn]

end Sys2Proof.Machine
end
